-- ==== Sys2Proof/Word.lean ====
section
/-! DEFINITION. The word types of the framing engine (00_scope.md R11): bytes, and the 16- and 32-bit
unsigned values that little-endian fields are read as. Nothing in the block is signed. -/

namespace Sys2Proof

/-- A byte, bits 7 (most significant) down to 0 (R11). -/
abbrev Byte := BitVec 8

/-- A 16-bit unsigned value: a length, a distance, a command id, a status word. -/
abbrev Word16 := BitVec 16

/-- A 32-bit unsigned value: a timestamp, a firmware minor version, a threshold operand. -/
abbrev Word32 := BitVec 32

/-- Four bytes in wire order, `b0` the first: a magic (30_encoding.md R101), the header window `WIN[0..3]`
(10_state.md R34) and the tail window `TWIN[0..3]` (R38). -/
structure Quad where
  b0 : Byte
  b1 : Byte
  b2 : Byte
  b3 : Byte
deriving DecidableEq, Repr

/-- A GateArray (10_state.md R40): the ordered bytes of gates 0, 1, …; its count `N` is the list's length.
That `N` never exceeds `gmax` is an invariant of the machine (Safety.lean). -/
abbrev GateArray := List Byte

end Sys2Proof
end

