-- ==== Sys2Proof/Config.lean ====
section
/-! DEFINITION. What an instance of the engine fixes (00_scope.md R6, R7), and the free values of the spec. -/

namespace Sys2Proof

/-- The layout profile `PROFILE` (R2, R6). -/
inductive Profile where
  | doc
  | vendor
deriving DecidableEq, Repr

/-- `UNSOL_ACK_RESULT` (R6): what CHECK answers for an Ack that matches no pending request. -/
inductive UnsolAckResult where
  | data
  | fail
deriving DecidableEq, Repr

/-- `DATA_IN_CFG` (R6): whether Data frames are decoded while `IN_CFG = 1`. -/
inductive DataInCfg where
  | decode
  | block
deriving DecidableEq, Repr

/-- The implementation parameters of the block (R6). `LMAX`, `GMAX` and `TW` are derived or fixed;
`T_WAIT` and `T_BEGIN` bind the host, not the block (`HostParams`). -/
structure Instance where
  /-- `CAP`, capacity of `PBUF` in bytes, 1..65535 -/
  cap : Nat
  /-- `OVH`, the fixed overhead of the length guard, 0..CAP -/
  ovh : Nat
  profile : Profile
  subBasic : Byte
  subEnh : Byte
  unsolAckResult : UnsolAckResult
  dataInCfg : DataInCfg
deriving DecidableEq, Repr

/-- The standard instance (the "standard value" column of R6), `MLFE-v7-DOC` (R2). -/
def Instance.standard : Instance where
  cap := 64
  ovh := 0
  profile := .doc
  subBasic := 0x02
  subEnh := 0x01
  unsolAckResult := .data
  dataInCfg := .decode

/-- `LMAX = CAP - OVH`, the largest accepted payload length (R6). -/
def Instance.lmax (c : Instance) : Nat := c.cap - c.ovh

/-- The constraints of R7 and the ranges of R6. A model refuses an instance that breaks one. -/
def Instance.wf (c : Instance) : Bool :=
  decide (1 ≤ c.cap ∧ c.cap ≤ 65535 ∧ c.ovh ≤ c.cap ∧ c.subBasic ≠ c.subEnh)

/-- `GMAX`, the capacity of a GateArray (R6). -/
def gmax : Nat := 9

/-- The host's two bounds in milliseconds (R6): `T_WAIT`, standard value 2000, and `T_BEGIN`, which is OPEN
and therefore has no default. Only the host contract (Machine/Driver.lean) reads them. -/
structure HostParams where
  tWait : Nat := 2000
  tBegin : Nat
deriving DecidableEq, Repr

/-- FREE VALUE (assumption log 6): the bytes that RESET leaves unspecified (`WIN`, `LB`, `TWIN`; 10_state.md R72,
93_implementation_defined.md I6). The argument is the number of free values drawn before. No body: nothing can be
proved of the bytes, so a claim holds whatever they are. -/
opaque Config.freeByte : Nat → Byte

end Sys2Proof
end

