-- ==== Sys2Proof/Syntax.lean ====
section
/-! DEFINITION. The syntax of the engine: commands, frames, host calls, and `Instr`, one constructor per row of
spec/opcode_table.json. -/

namespace Sys2Proof

/-- The frame family that a header magic opens, and the values of `KIND` (10_state.md R33). -/
inductive FrameKind where
  | data
  | ack
deriving DecidableEq, Repr

/-- The fifteen commands (30_encoding.md R120), in the order of their codes 0 to 14. Code 15 is reserved and never
held, so no constructor stands for it. -/
inductive Cmd where
  | enterCfg
  | exitCfg
  | enhOn
  | enhOff
  | readMac
  | readFw
  | readRes
  | setRes
  | readParams
  | setGateThr
  | setMaxgateNoone
  | factoryReset
  | reboot
  | btOn
  | btOff
deriving DecidableEq, Repr

/-- One host operation as it stands on the `host_op` and `host_args` ports (10_state.md R70): the word
`W = host_op[2:0] ++ c[3:0]` (30_encoding.md R145) and three operand ports (assumption log 8). An operation reads
only the operand ports its rule names. -/
structure HostCall where
  w : BitVec 7
  a : Word32 := 0
  b : Word32 := 0
  c : Word32 := 0
deriving DecidableEq, Repr

/-- The instructions: one constructor per row of the opcode table. An inbound frame carries its payload `p`
(`RawFrame.payload`, `p = PBUF[0..PLEN-1]`); a transmit operation its operands; FEED its bytes. -/
inductive Instr where
  -- inbound Data frames (42_data_decoder.md)
  | dataBasic (p : List Byte)
  | dataEnhanced (p : List Byte)
  | dataBasicVendor (p : List Byte)
  | dataEnhancedVendor (p : List Byte)
  | dataBadMarkerVendor (p : List Byte)
  | dataReservedSubtype (p : List Byte)
  -- inbound Ack frames (43_ack_decoder.md)
  | ackEnterCfg (p : List Byte)
  | ackExitCfg (p : List Byte)
  | ackEnhOn (p : List Byte)
  | ackEnhOff (p : List Byte)
  | ackReadMac (p : List Byte)
  | ackReadFw (p : List Byte)
  | ackReadRes (p : List Byte)
  | ackSetRes (p : List Byte)
  | ackReadParams (p : List Byte)
  | ackSetGateThr (p : List Byte)
  | ackSetMaxgateNoone (p : List Byte)
  | ackFactoryReset (p : List Byte)
  | ackReboot (p : List Byte)
  | ackBtOn (p : List Byte)
  | ackBtOff (p : List Byte)
  | ackUnsolicited (p : List Byte)
  -- transmit operations (44_host_ops.md)
  | txEnterCfg
  | txExitCfg
  | txEnhOn
  | txEnhOff
  | txReadMac
  | txReadFw
  | txReadRes
  | txSetRes (r : Word16)
  | txReadParams
  | txSetGateThr (gate mov stat : Word32)
  | txSetMaxgateNoone (mm ms t : Word32)
  | txFactoryReset
  | txReboot
  | txBtOn
  | txBtOff
  | txReserved15
  -- the other host operations
  | reset
  | check
  | timeout
  | rd (i g : Word32)
  | reservedOp5
  | reservedOp6
  | reservedOp7
  -- the transport step
  | feed (bs : List Byte)
deriving DecidableEq, Repr

/-- How an instruction stands outside the engine: an inbound frame as its bytes in wire order, a host operation as
a call on the host ports, the transport step as the bytes it appends (it has no bit encoding of its own). -/
inductive Code where
  | frame (bytes : List Byte)
  | call (c : HostCall)
  | transport (bs : List Byte)
deriving DecidableEq, Repr

/-- The context that selects a table row for a completed frame: the instance parameters that the classifier reads
(41_classifier.md R202, R204, R207) and the pending request, `none` while `PEND_VALID = 0`. -/
structure DecodeCtx where
  profile : Profile
  subBasic : Byte
  subEnh : Byte
  lmax : Nat
  pend : Option Cmd
deriving DecidableEq, Repr

/-- Why the whole-frame decoder rejects a byte string, by name. -/
inductive DecodeError where
  /-- the first four bytes are no header magic (30_encoding.md R140 a) -/
  | noHeader
  /-- the bytes end before the frame does -/
  | truncated
  /-- `L > LMAX` (R140 b) -/
  | lengthOverflow
  /-- the four bytes after the payload are not the family's tail (R140 c) -/
  | tailMismatch
  /-- bytes follow the frame's tail -/
  | trailing
deriving DecidableEq, Repr

end Sys2Proof
end

