-- ==== Sys2Proof/Decode.lean ====
section
/-! DEFINITION. From words to instructions and back: byte order (00_scope.md R12), magics and the frame layout
(30_encoding.md R100 to R103), the command table (R120), the choice of a table row for a completed frame, the
host-operation word (R145), and the encoder. Decoding is total; what is no instruction is rejected by name. -/

namespace Sys2Proof

/-! ### Byte order (R12, 20_memory.md R88) -/

/-- Byte `i` of a byte sequence. Every rule checks the length before it reads, so the default is never a
stored value (20_memory.md R84). -/
def byteAt (p : List Byte) (i : Nat) : Byte := p.getD i 0

/-- `le16(p, i) = p[i] | (p[i+1] << 8)` (R12). -/
def le16 (p : List Byte) (i : Nat) : Word16 :=
  (byteAt p i).setWidth 16 ||| ((byteAt p (i + 1)).setWidth 16 <<< 8)

/-- `le32(p, i)`: four bytes, the least significant first (R12). -/
def le32 (p : List Byte) (i : Nat) : Word32 :=
  (byteAt p i).setWidth 32 ||| ((byteAt p (i + 1)).setWidth 32 <<< 8)
    ||| ((byteAt p (i + 2)).setWidth 32 <<< 16) ||| ((byteAt p (i + 3)).setWidth 32 <<< 24)

/-- `bytes16(v) = [v[7:0], v[15:8]]` (R12). -/
def bytes16 (v : Word16) : List Byte := [v.extractLsb' 0 8, v.extractLsb' 8 8]

/-- `bytes32(v) = [v[7:0], v[15:8], v[23:16], v[31:24]]` (R12). -/
def bytes32 (v : Word32) : List Byte :=
  [v.extractLsb' 0 8, v.extractLsb' 8 8, v.extractLsb' 16 8, v.extractLsb' 24 8]

/-! ### Magics and the frame layout (R100, R101) -/

def Quad.toList (q : Quad) : List Byte := [q.b0, q.b1, q.b2, q.b3]

/-- The header magics (R101). -/
def headerMagic : FrameKind → Quad
  | .data => ⟨0xF4, 0xF3, 0xF2, 0xF1⟩
  | .ack => ⟨0xFD, 0xFC, 0xFB, 0xFA⟩

/-- The tail magics, `TAIL(KIND)` (R101, 40_assembler.md R170). -/
def tailMagic : FrameKind → Quad
  | .data => ⟨0xF8, 0xF7, 0xF6, 0xF5⟩
  | .ack => ⟨0x04, 0x03, 0x02, 0x01⟩

/-- A whole frame (R100): header magic, 2-byte little-endian length, payload, tail magic. -/
def frameBytes (k : FrameKind) (p : List Byte) : List Byte :=
  (headerMagic k).toList ++ bytes16 (BitVec.ofNat 16 p.length) ++ p ++ (tailMagic k).toList

/-- Which header magic a window equals, if any (40_assembler.md R162). The two magics differ. -/
def headerOf (q : Quad) : Option FrameKind :=
  if q = headerMagic .data then some .data
  else if q = headerMagic .ack then some .ack
  else none

/-- The whole-frame reader (R100, R142): the family, the payload and the bytes after the frame. The length comes from
the length field alone; the payload is never searched. -/
def parseFrame (lmax : Nat) : List Byte → Except DecodeError (FrameKind × List Byte × List Byte)
  | h0 :: h1 :: h2 :: h3 :: l0 :: l1 :: rest =>
    match headerOf ⟨h0, h1, h2, h3⟩ with
    | none => .error .noHeader
    | some k =>
      let len := (le16 [l0, l1] 0).toNat
      if lmax < len then .error .lengthOverflow
      else
        match rest.drop len with
        | t0 :: t1 :: t2 :: t3 :: after =>
          if (⟨t0, t1, t2, t3⟩ : Quad) = tailMagic k then .ok (k, rest.take len, after)
          else .error .tailMismatch
        | _ => .error .truncated
  | h0 :: h1 :: h2 :: h3 :: _ =>
    match headerOf ⟨h0, h1, h2, h3⟩ with
    | none => .error .noHeader
    | some _ => .error .truncated
  | _ => .error .truncated

/-! ### The command table (R112, R120) -/

/-- The `code` column of R120, held in `PEND_CMD`. -/
def Cmd.code : Cmd → BitVec 4
  | .enterCfg => 0
  | .exitCfg => 1
  | .enhOn => 2
  | .enhOff => 3
  | .readMac => 4
  | .readFw => 5
  | .readRes => 6
  | .setRes => 7
  | .readParams => 8
  | .setGateThr => 9
  | .setMaxgateNoone => 10
  | .factoryReset => 11
  | .reboot => 12
  | .btOn => 13
  | .btOff => 14

/-- The command of a code; code 15 is reserved (R120). -/
def Cmd.ofCode (c : BitVec 4) : Option Cmd :=
  match c.toNat with
  | 0 => some .enterCfg
  | 1 => some .exitCfg
  | 2 => some .enhOn
  | 3 => some .enhOff
  | 4 => some .readMac
  | 5 => some .readFw
  | 6 => some .readRes
  | 7 => some .setRes
  | 8 => some .readParams
  | 9 => some .setGateThr
  | 10 => some .setMaxgateNoone
  | 11 => some .factoryReset
  | 12 => some .reboot
  | 13 => some .btOn
  | 14 => some .btOff
  | _ => none

/-- The `CMD_ID` column of R120. -/
def Cmd.id : Cmd → Word16
  | .enterCfg => 0x00FF
  | .exitCfg => 0x00FE
  | .enhOn => 0x0062
  | .enhOff => 0x0063
  | .readMac => 0x00A5
  | .readFw => 0x00A0
  | .readRes => 0x00AB
  | .setRes => 0x00AA
  | .readParams => 0x0061
  | .setGateThr => 0x0064
  | .setMaxgateNoone => 0x0060
  | .factoryReset => 0x00A2
  | .reboot => 0x00A3
  | .btOn => 0x00A4
  | .btOff => 0x00A4

/-- `ACKID(c)` (R112): the id itself under DOC, the id with bit 8 set under VENDOR. -/
def Cmd.ackId (prof : Profile) (c : Cmd) : Word16 :=
  match prof with
  | .doc => c.id
  | .vendor => c.id ||| 0x0100

/-! ### The row of a completed frame (R103, R204, R207) -/

/-- The Ack row of a command (43_ack_decoder.md R263 to R277). -/
def ackInstr : Cmd → List Byte → Instr
  | .enterCfg => .ackEnterCfg
  | .exitCfg => .ackExitCfg
  | .enhOn => .ackEnhOn
  | .enhOff => .ackEnhOff
  | .readMac => .ackReadMac
  | .readFw => .ackReadFw
  | .readRes => .ackReadRes
  | .setRes => .ackSetRes
  | .readParams => .ackReadParams
  | .setGateThr => .ackSetGateThr
  | .setMaxgateNoone => .ackSetMaxgateNoone
  | .factoryReset => .ackFactoryReset
  | .reboot => .ackReboot
  | .btOn => .ackBtOn
  | .btOff => .ackBtOff

/-- The Data rows: by the sub-type byte `p[0]` (R109, 41_classifier.md R202, R204) and, under VENDOR, the head marker
`p[1] = 0xAA` (42_data_decoder.md R233). An empty payload is in the lowest row, whose own check is R201. -/
def selectData (x : DecodeCtx) (p : List Byte) : Instr :=
  match p with
  | [] => .dataReservedSubtype []
  | sub :: rest =>
    if sub ≠ x.subBasic ∧ sub ≠ x.subEnh then .dataReservedSubtype p
    else
      match x.profile with
      | .doc => if sub = x.subBasic then .dataBasic p else .dataEnhanced p
      | .vendor =>
        if rest.head? = some 0xAA then
          (if sub = x.subBasic then .dataBasicVendor p else .dataEnhancedVendor p)
        else .dataBadMarkerVendor p

/-- The Ack rows: the pending command's row when the id is its `ACKID`, else the unsolicited row (R207, R208). A payload
under 4 bytes is in the lowest row, whose own check is R205. -/
def selectAck (x : DecodeCtx) (p : List Byte) : Instr :=
  if p.length < 4 then .ackUnsolicited p
  else
    match x.pend with
    | none => .ackUnsolicited p
    | some c => if le16 p 0 = c.ackId x.profile then ackInstr c p else .ackUnsolicited p

/-- CLASSIFY's routing (R200): by the header family, never guessed from the payload. -/
def selectRow (x : DecodeCtx) (k : FrameKind) (p : List Byte) : Instr :=
  match k with
  | .data => selectData x p
  | .ack => selectAck x p

/-! ### The host-operation word (R145, 44_host_ops.md R300) -/

/-- The transmit row of a command with the operand ports (30_encoding.md R124 to R126). SET_RES has one 16-bit operand, the low half
of the first port (assumption log 8). -/
def txInstr (cmd : Cmd) (a b c : Word32) : Instr :=
  match cmd with
  | .enterCfg => .txEnterCfg
  | .exitCfg => .txExitCfg
  | .enhOn => .txEnhOn
  | .enhOff => .txEnhOff
  | .readMac => .txReadMac
  | .readFw => .txReadFw
  | .readRes => .txReadRes
  | .setRes => .txSetRes (a.extractLsb' 0 16)
  | .readParams => .txReadParams
  | .setGateThr => .txSetGateThr a b c
  | .setMaxgateNoone => .txSetMaxgateNoone a b c
  | .factoryReset => .txFactoryReset
  | .reboot => .txReboot
  | .btOn => .txBtOn
  | .btOff => .txBtOff

/-- The operation of a host call: `host_op = W[6:4]`, `c = W[3:0]`, and `c` is read for TX only (R145). -/
def decodeCall (k : HostCall) : Instr :=
  match (k.w.extractLsb' 4 3).toNat with
  | 0 => .reset
  | 1 => .check
  | 2 =>
    match Cmd.ofCode (k.w.extractLsb' 0 4) with
    | some cmd => txInstr cmd k.a k.b k.c
    | none => .txReserved15
  | 3 => .timeout
  | 4 => .rd k.a k.b
  | 5 => .reservedOp5
  | 6 => .reservedOp6
  | _ => .reservedOp7

/-- The decoder: a frame's bytes are read whole and nothing may follow them. -/
def decode (x : DecodeCtx) : Code → Except DecodeError Instr
  | .frame bs =>
    match parseFrame x.lmax bs with
    | .error e => .error e
    | .ok (k, p, []) => .ok (selectRow x k p)
    | .ok (_, _, _ :: _) => .error .trailing
  | .call k => .ok (decodeCall k)
  | .transport bs => .ok (.feed bs)

/-! ### The encoder -/

/-- The word of a transmit operation: host_op 2 and the command's code (R145). -/
def txCall (cmd : Cmd) (a b c : Word32) : Code :=
  .call { w := (2 : BitVec 3) ++ cmd.code, a, b, c }

/-- The word of an operation that does not read `c`: `c` is `0000` (R145). -/
def opCall (op : BitVec 3) (a b : Word32) : Code :=
  .call { w := op ++ (0 : BitVec 4), a, b }

/-- The words of an instruction: R100 for frames, R145 for host operations; FEED has none (R330). -/
def encode : Instr → Code
  | .dataBasic p => .frame (frameBytes .data p)
  | .dataEnhanced p => .frame (frameBytes .data p)
  | .dataBasicVendor p => .frame (frameBytes .data p)
  | .dataEnhancedVendor p => .frame (frameBytes .data p)
  | .dataBadMarkerVendor p => .frame (frameBytes .data p)
  | .dataReservedSubtype p => .frame (frameBytes .data p)
  | .ackEnterCfg p => .frame (frameBytes .ack p)
  | .ackExitCfg p => .frame (frameBytes .ack p)
  | .ackEnhOn p => .frame (frameBytes .ack p)
  | .ackEnhOff p => .frame (frameBytes .ack p)
  | .ackReadMac p => .frame (frameBytes .ack p)
  | .ackReadFw p => .frame (frameBytes .ack p)
  | .ackReadRes p => .frame (frameBytes .ack p)
  | .ackSetRes p => .frame (frameBytes .ack p)
  | .ackReadParams p => .frame (frameBytes .ack p)
  | .ackSetGateThr p => .frame (frameBytes .ack p)
  | .ackSetMaxgateNoone p => .frame (frameBytes .ack p)
  | .ackFactoryReset p => .frame (frameBytes .ack p)
  | .ackReboot p => .frame (frameBytes .ack p)
  | .ackBtOn p => .frame (frameBytes .ack p)
  | .ackBtOff p => .frame (frameBytes .ack p)
  | .ackUnsolicited p => .frame (frameBytes .ack p)
  | .txEnterCfg => txCall .enterCfg 0 0 0
  | .txExitCfg => txCall .exitCfg 0 0 0
  | .txEnhOn => txCall .enhOn 0 0 0
  | .txEnhOff => txCall .enhOff 0 0 0
  | .txReadMac => txCall .readMac 0 0 0
  | .txReadFw => txCall .readFw 0 0 0
  | .txReadRes => txCall .readRes 0 0 0
  | .txSetRes r => txCall .setRes (r.setWidth 32) 0 0
  | .txReadParams => txCall .readParams 0 0 0
  | .txSetGateThr gate mov stat => txCall .setGateThr gate mov stat
  | .txSetMaxgateNoone mm ms t => txCall .setMaxgateNoone mm ms t
  | .txFactoryReset => txCall .factoryReset 0 0 0
  | .txReboot => txCall .reboot 0 0 0
  | .txBtOn => txCall .btOn 0 0 0
  | .txBtOff => txCall .btOff 0 0 0
  | .txReserved15 => .call { w := (2 : BitVec 3) ++ (15 : BitVec 4) }
  | .reset => opCall 0 0 0
  | .check => opCall 1 0 0
  | .timeout => opCall 3 0 0
  | .rd i g => opCall 4 i g
  | .reservedOp5 => opCall 5 0 0
  | .reservedOp6 => opCall 6 0 0
  | .reservedOp7 => opCall 7 0 0
  | .feed bs => .transport bs

/-! ### Words as opcode_table.json numbers them (assumption log 2) -/

/-- The family and the two selector bytes of a 48-bit selector word (R103). The table writes a selector as one number,
first wire byte highest; the reading with the first wire byte lowest is accepted as well. No word is both. -/
def selectorOf (w : Nat) : Option (FrameKind × Byte × Byte) :=
  if w / 65536 = 0xF4F3F2F1 then some (.data, BitVec.ofNat 8 (w / 256), BitVec.ofNat 8 w)
  else if w / 65536 = 0xFDFCFBFA then some (.ack, BitVec.ofNat 8 (w / 256), BitVec.ofNat 8 w)
  else if w % 4294967296 = 0xF1F2F3F4 then
    some (.data, BitVec.ofNat 8 (w / 4294967296), BitVec.ofNat 8 (w / 1099511627776))
  else if w % 4294967296 = 0xFAFBFCFD then
    some (.ack, BitVec.ofNat 8 (w / 4294967296), BitVec.ofNat 8 (w / 1099511627776))
  else none

/-- The first command of R120 with a given id. BT_ON and BT_OFF share one id: a word alone reads as BT_ON. -/
def cmdOfId (v : Word16) : Option Cmd :=
  [Cmd.enterCfg, .exitCfg, .enhOn, .enhOff, .readMac, .readFw, .readRes, .setRes, .readParams, .setGateThr,
    .setMaxgateNoone, .factoryReset, .reboot, .btOn, .btOff].find? (fun c => c.id == v)

/-- The context in which a table row's selector stands: VENDOR for a sub-type with the head marker and for an Ack id
with bit 8 set, DOC otherwise; the request of the id's command pending (the rows' own `matches_only_if`). -/
def tableCtx (k : FrameKind) (b0 b1 : Byte) : DecodeCtx :=
  match k with
  | .data =>
    { profile := if (b0 = 0x02 ∨ b0 = 0x01) ∧ b1 = 0xAA then .vendor else .doc
      subBasic := 0x02, subEnh := 0x01, lmax := 64, pend := none }
  | .ack =>
    { profile := if b1 = 0x01 then .vendor else .doc
      subBasic := 0x02, subEnh := 0x01, lmax := 64
      pend := cmdOfId (if b1 = 0x01 then le16 [b0, 0] 0 else le16 [b0, b1] 0) }

/-- The payload of a table word: the two selector bytes, then zeros up to the standard `LMAX`. -/
def tablePayload (b0 b1 : Byte) : List Byte := b0 :: b1 :: List.replicate 62 0

/-- The host call of a table word: W in the low seven bits, operands of zeros. -/
def tableCall (w : Nat) : HostCall := { w := BitVec.ofNat 7 w }

/-- The instruction the decoder reads from a table word: 48 bits are a selector, 7 bits (8 in whole bytes) a
host-operation word, and FEED, to which the table gives no bits, is the empty word. -/
def decodeTableWord (nbits w : Nat) : Option Instr :=
  if nbits = 48 then
    match selectorOf w with
    | some (k, b0, b1) => some (selectRow (tableCtx k b0 b1) k (tablePayload b0 b1))
    | none => none
  else if nbits = 8 ∨ nbits = 7 then
    if w < 128 then some (decodeCall (tableCall w)) else none
  else if nbits = 0 then some (.feed [])
  else none

end Sys2Proof
end

