-- ==== Sys2Proof/WellFormed.lean ====
section
/-! DEFINITION. Which instructions can stand in the stream of a given context: the checks of the opcode table's rows,
each written out for its row, without the decoder's row selection. -/

namespace Sys2Proof

/-- The payload fits the length guard and the 2-byte length field (30_encoding.md R102, R143). -/
def fits (x : DecodeCtx) (p : List Byte) : Bool := decide (p.length ≤ x.lmax ∧ p.length < 65536)

/-- A known sub-type byte (R109). -/
def knownSubtype (x : DecodeCtx) (b : Byte) : Bool := b == x.subBasic || b == x.subEnh

/-- A DOC row: profile DOC and the row's sub-type first. -/
def docRow (x : DecodeCtx) (sub : Byte) (p : List Byte) : Bool :=
  fits x p && x.profile == .doc && p.head? == some sub

/-- A VENDOR row: profile VENDOR, the row's sub-type first and the head marker second (R106, R107). -/
def vendorRow (x : DecodeCtx) (sub : Byte) (p : List Byte) : Bool :=
  fits x p && x.profile == .vendor && p[0]? == some sub && p[1]? == some 0xAA

/-- An Ack row of a command: id and status word present, the command pending, and the id its `ACKID` (41_classifier.md R205, R207). -/
def ackRow (x : DecodeCtx) (c : Cmd) (p : List Byte) : Bool :=
  fits x p && decide (4 ≤ p.length) && x.pend == some c && le16 p 0 == c.ackId x.profile

/-- No pending request matches the payload's id, or there is no whole id and status word (R205, R208). -/
def unmatched (x : DecodeCtx) (p : List Byte) : Bool :=
  decide (p.length < 4) ||
    (match x.pend with
     | none => true
     | some c => le16 p 0 != c.ackId x.profile)

/-- Well-formedness in a context. Sub-types must differ for the rows to be told apart (00_scope.md R7). -/
def Instr.wf (x : DecodeCtx) : Instr → Bool
  | .dataBasic p => docRow x x.subBasic p
  | .dataEnhanced p => docRow x x.subEnh p && x.subBasic != x.subEnh
  | .dataBasicVendor p => vendorRow x x.subBasic p
  | .dataEnhancedVendor p => vendorRow x x.subEnh p && x.subBasic != x.subEnh
  | .dataBadMarkerVendor p =>
    fits x p && x.profile == .vendor && (p.head?.any (knownSubtype x)) && p[1]? != some 0xAA
  | .dataReservedSubtype p => fits x p && !(p.head?.any (knownSubtype x))
  | .ackEnterCfg p => ackRow x .enterCfg p
  | .ackExitCfg p => ackRow x .exitCfg p
  | .ackEnhOn p => ackRow x .enhOn p
  | .ackEnhOff p => ackRow x .enhOff p
  | .ackReadMac p => ackRow x .readMac p
  | .ackReadFw p => ackRow x .readFw p
  | .ackReadRes p => ackRow x .readRes p
  | .ackSetRes p => ackRow x .setRes p
  | .ackReadParams p => ackRow x .readParams p
  | .ackSetGateThr p => ackRow x .setGateThr p
  | .ackSetMaxgateNoone p => ackRow x .setMaxgateNoone p
  | .ackFactoryReset p => ackRow x .factoryReset p
  | .ackReboot p => ackRow x .reboot p
  | .ackBtOn p => ackRow x .btOn p
  | .ackBtOff p => ackRow x .btOff p
  | .ackUnsolicited p => fits x p && unmatched x p
  | .txEnterCfg => true
  | .txExitCfg => true
  | .txEnhOn => true
  | .txEnhOff => true
  | .txReadMac => true
  | .txReadFw => true
  | .txReadRes => true
  | .txSetRes _ => true
  | .txReadParams => true
  | .txSetGateThr _ _ _ => true
  | .txSetMaxgateNoone _ _ _ => true
  | .txFactoryReset => true
  | .txReboot => true
  | .txBtOn => true
  | .txBtOff => true
  | .txReserved15 => true
  | .reset => true
  | .check => true
  | .timeout => true
  | .rd _ _ => true
  | .reservedOp5 => true
  | .reservedOp6 => true
  | .reservedOp7 => true
  | .feed _ => true

end Sys2Proof
end

