-- ==== Sys2Proof/Machine/State.lean ====
section
/-! DEFINITION. Everything the spec gives the machine, as plain data (10_state.md, 20_memory.md), the reasons a step can
stop, and the machine right after reset (10_state.md R72). -/

namespace Sys2Proof.Machine

open Sys2Proof

/-- `ASM_STATE` (10_state.md R32). `Complete` and `Resync` are no held states. -/
inductive AsmState where
  | seekHeader
  | readLength
  | readPayload
  | readTail
deriving DecidableEq, Repr

/-- The payload buffer (20_memory.md R81): address and byte, addresses strictly rising. An address that is not listed
holds no value: nothing has written it (assumption log 7). -/
abbrev Memory := List Host.Cell

/-- The assembler registers (10_state.md R32 to R38) and the payload buffer; all hidden from the host (R63). -/
structure Asm where
  /-- `ASM_STATE` (R32) -/
  state : AsmState
  /-- `KIND` (R33), meaningful outside SEEK_HEADER -/
  kind : FrameKind
  /-- `WIN[0..3]` (R34), `b0` the oldest byte; the first `wn` bytes are meaningful -/
  win : Quad
  /-- `WN` (R34), 0..4 -/
  wn : Nat
  /-- `LB` (R35), the low length byte while the second is awaited -/
  lb : Byte
  /-- `LN` (R35) -/
  ln : Nat
  /-- `L` (R36), the declared payload length -/
  len : Word16
  /-- `PLEN` (R37), payload bytes collected -/
  plen : Word16
  /-- `TWIN[0..3]` (R38); the first `tn` bytes are meaningful -/
  twin : Quad
  /-- `TN` (R38) -/
  tn : Nat
  /-- `PBUF[0..CAP-1]` (20_memory.md R81) -/
  pbuf : Memory
deriving DecidableEq, Repr

/-- The sensor snapshot (10_state.md R40 to R47). -/
structure Snapshot where
  /-- `MOV_PRES` (R41) -/
  movPres : Bool
  /-- `STAT_PRES` (R41) -/
  statPres : Bool
  /-- `MOV_DIST` (R42) -/
  movDist : Word16
  /-- `MOV_SIG` (R42) -/
  movSig : Byte
  /-- `STAT_DIST` (R43) -/
  statDist : Word16
  /-- `STAT_SIG` (R43) -/
  statSig : Byte
  /-- `DET_DIST` (R44) -/
  detDist : Word16
  /-- `TS` (R45) -/
  ts : Word32
  /-- `MOV_SIGS` (R46) -/
  movSigs : GateArray
  /-- `STAT_SIGS` (R46) -/
  statSigs : GateArray
deriving DecidableEq, Repr

/-- `RES` (10_state.md R53). Code 3 is never held: no constructor stands for it. -/
inductive Resolution where
  | unknown
  | fine20
  | coarse75
deriving DecidableEq, Repr

/-- The device configuration (10_state.md R50 to R54, R59). -/
structure DeviceConfig where
  /-- `PROTO_VALID` (R50) -/
  protoValid : Bool
  /-- `PROTO_VER` (R50) -/
  protoVer : Word16
  /-- `FW_VALID` (R51) -/
  fwValid : Bool
  /-- `FW_TYPE` (R51) -/
  fwType : Word16
  /-- `FW_MAJOR` (R51) -/
  fwMajor : Word16
  /-- `FW_MINOR` (R51) -/
  fwMinor : Word32
  /-- `MAC_VALID` (R52) -/
  macValid : Bool
  /-- `MAC[0..5]` (R52), in received order -/
  mac : Vector Byte 6
  /-- `RES` (R53) -/
  res : Resolution
  /-- `PARAM_VALID` (R54) -/
  paramValid : Bool
  /-- `MAX_MOV` (R54) -/
  maxMov : Byte
  /-- `MAX_STAT` (R54) -/
  maxStat : Byte
  /-- `RANGE` (R54) -/
  range : Byte
  /-- `NOONE` (R54) -/
  noone : Word16
  /-- `MOV_THR` (R54) -/
  movThr : GateArray
  /-- `STAT_THR` (R54) -/
  statThr : GateArray
deriving DecidableEq, Repr

/-- The error and information events, by the names and in the order of their codes 1 to 13 (60_exceptions.md R351). -/
inductive Event where
  | frameSync
  | lengthOverflow
  | tailMismatch
  | unknownSubtype
  | commandTimeout
  | commandRejected
  | transportUnavailable
  | shortPayload
  | badMarker
  | configGated
  | txBusy
  | unsolicitedAck
  | dataBlocked
deriving DecidableEq, Repr

/-- The CHECK result record (44_host_ops.md R303). `aid` and `status` are meaningful only with `ACK`, so only `ack`
carries them. -/
inductive CheckResult where
  | fail
  | data
  | ack (aid status : Word16)
deriving DecidableEq, Repr

/-- The result of TX (44_host_ops.md R310). -/
inductive TxResult where
  | sent
  | gated
  | busy
deriving DecidableEq, Repr

/-- What the `host_result` port shows when an operation ends (10_state.md R70, 44_host_ops.md R300). -/
inductive OpResult where
  /-- RESET and TIMEOUT answer nothing -/
  | done
  | check (r : CheckResult)
  | tx (r : TxResult)
  /-- RD; the widest register has 32 bits, narrower ones are zero-extended -/
  | value (v : Word32)
deriving DecidableEq, Repr

/-- Whose turn is next (00_scope.md R8, R15; assumption log 4). -/
inductive Turn where
  /-- the host begins an operation (44_host_ops.md R300) -/
  | host (c : HostCall)
  /-- the transport appends bytes to the receive FIFO (FEED, R330) -/
  | transport (bs : List Byte)
  /-- the transport takes `n` bytes from the transmit FIFO (20_memory.md R87) -/
  | drain (n : Nat)
  /-- the `time_now` input changes (10_state.md R71; `NOW n` of 00_scope.md R15) -/
  | clock (t : Word32)
  /-- the engine takes one round of the CHECK in progress (44_host_ops.md R302) -/
  | engine
  /-- the host waits until the operation in progress has ended -/
  | await
deriving DecidableEq, Repr

/-- The machine. -/
structure State where
  /-- the instance's parameters (00_scope.md R6); no step writes them -/
  inst : Instance
  /-- assembler and payload buffer -/
  asm : Asm
  /-- sensor snapshot -/
  snap : Snapshot
  /-- device configuration -/
  cfg : DeviceConfig
  /-- `IN_CFG` (10_state.md R56) -/
  inCfg : Bool
  /-- `ENHANCED` (R57) -/
  enhanced : Bool
  /-- `PEND_VALID` (R55) -/
  pendValid : Bool
  /-- `PEND_CMD` (R55); code 15 is never held -/
  pendCmd : Cmd
  /-- a CHECK is in progress: the engine stands between two byte steps of R302's loop (R305) -/
  checking : Bool
  /-- receive FIFO, the oldest byte first (20_memory.md R86) -/
  rx : List Byte
  /-- transmit FIFO, the oldest byte first (R87) -/
  tx : List Byte
  /-- the `time_now` input (10_state.md R71) -/
  timeNow : Word32
  /-- the MODEL's own: the turns to come, the next one first (assumption log 4) -/
  turns : List Turn
  /-- the MODEL's own: how many free values have been drawn (assumption log 6) -/
  draws : Nat
  /-- the `host_result` port: an output, not a register (44_host_ops.md R303; assumption log 10) -/
  result : Option OpResult
  /-- the `event` port: the codes raised in the last step, in order; an output, not a register (60_exceptions.md R352;
  assumption log 10) -/
  events : List Event
deriving DecidableEq, Repr

/-- Why the machine stops with a fault. The spec gives the block no trap (60_exceptions.md R350); both faults stand for
states that no run reaches, and Safety.lean's invariant rules them out. -/
inductive Fault where
  /-- raised by the READ_PAYLOAD byte step when `PLEN ≥ CAP`: an index outside `PBUF` (20_memory.md R83). Safe: the spec
  says it cannot happen. -/
  | pbufOverrun
  /-- raised when a completed frame's payload includes a byte that nothing has written (20_memory.md R84). Safe: the spec
  says no rule reads one. -/
  | pbufUnwritten
deriving DecidableEq, Repr

/-- Why there is no step. -/
inductive Refusal where
  /-- raised by exec for an instruction that has no meaning yet. Safe. -/
  | notModelled (mnemonic : String)
  /-- raised by the fetch for a host call made while a CHECK runs: "it refuses such a run" (00_scope.md R10,
  70_reset_and_hazards.md R400, 93_implementation_defined.md I1). Safe. -/
  | overlappingCall
  /-- raised by the reserved host_op codes 5 to 7 (44_host_ops.md R308, I2). Safe. -/
  | reservedHostOp
  /-- raised by TX with the reserved command code 15 (44_host_ops.md R326, I3). Safe. -/
  | reservedCommand
  /-- raised by the fetch for an instance that breaks a constraint (00_scope.md R7). Safe. -/
  | invalidInstance
deriving DecidableEq, Repr

/-- The empty snapshot (10_state.md R72). -/
def Snapshot.empty : Snapshot where
  movPres := false
  statPres := false
  movDist := 0
  movSig := 0
  statDist := 0
  statSig := 0
  detDist := 0
  ts := 0
  movSigs := []
  statSigs := []

/-- The unknown configuration (10_state.md R72). -/
def DeviceConfig.unknown : DeviceConfig where
  protoValid := false
  protoVer := 0
  fwValid := false
  fwType := 0
  fwMajor := 0
  fwMinor := 0
  macValid := false
  mac := #v[0, 0, 0, 0, 0, 0]
  res := .unknown
  paramValid := false
  maxMov := 0
  maxStat := 0
  range := 0
  noone := 0
  movThr := []
  statThr := []

/-- The assembler in SEEK_HEADER with an empty window (10_state.md R72). The windows and the low length byte are
unspecified there: zeros here are the model's choice (assumption log 6). `PBUF` lists nothing (log 7). -/
def Asm.clear : Asm where
  state := .seekHeader
  kind := .data
  win := ⟨0, 0, 0, 0⟩
  wn := 0
  lb := 0
  ln := 0
  len := 0
  plen := 0
  twin := ⟨0, 0, 0, 0⟩
  tn := 0
  pbuf := []

/-- The machine right after reset (10_state.md R72), the standard instance, both FIFOs and the ports empty (log 13). -/
def State.reset : State where
  inst := .standard
  asm := .clear
  snap := .empty
  cfg := .unknown
  inCfg := false
  enhanced := false
  pendValid := false
  pendCmd := .enterCfg
  checking := false
  rx := []
  tx := []
  timeNow := 0
  turns := []
  draws := 0
  result := none
  events := []

end Sys2Proof.Machine
end

