-- ==== Sys2Proof/Machine/Operands.lean ====
section
/-! DEFINITION. Every operand form: the Data payload layouts (30_encoding.md R104 to R107, 42_data_decoder.md R230), the Ack
return layouts (R130 to R137), the command parameter layouts (R122 to R128), and the RD index map (10_state.md R60). -/

namespace Sys2Proof.Machine

open Sys2Proof

/-- `p[i .. i+n-1]` (00_scope.md R12). -/
def slice (p : List Byte) (i n : Nat) : List Byte := (p.drop i).take n

/-! ### Data payloads -/

/-- The basic fields of a Data payload (42_data_decoder.md R230). -/
structure BasicFields where
  st : Byte
  md : Word16
  ms : Byte
  sd : Word16
  ss : Byte
  dd : Word16
deriving DecidableEq, Repr

/-- `BASIC(p, o)` (R230): status, moving distance and signal, stationary distance and signal, detected distance. -/
def basicFields (p : List Byte) (o : Nat) : BasicFields where
  st := byteAt p o
  md := le16 p (o + 1)
  ms := byteAt p (o + 3)
  sd := le16 p (o + 4)
  ss := byteAt p (o + 6)
  dd := le16 p (o + 7)

/-- `NG` of a DOC enhanced frame (30_encoding.md R105, R232): from `RANGE` when `PARAM_VALID = 1`, else no gate. -/
def gateCount (d : DeviceConfig) : Nat := if d.paramValid then min (d.range.toNat + 1) gmax else 0

/-- `MM`, the farthest moving gate of a VENDOR enhanced frame (R107). -/
def vendorMm (p : List Byte) : Nat := (byteAt p 11).toNat

/-- `MS`, the farthest stationary gate of a VENDOR enhanced frame (R107). -/
def vendorMs (p : List Byte) : Nat := (byteAt p 12).toNat

/-! ### Ack payloads -/

/-- `AID` (30_encoding.md R110, 41_classifier.md R206). -/
def ackAid (p : List Byte) : Word16 := le16 p 0

/-- `STW`, the status word (R110, R206). -/
def ackStatus (p : List Byte) : Word16 := le16 p 2

/-- `NEED(c)`, the payload length a successful Ack must have (R120, R136). -/
def ackNeed : Cmd → Nat
  | .enterCfg => 8
  | .exitCfg => 4
  | .enhOn => 4
  | .enhOff => 4
  | .readMac => 10
  | .readFw => 12
  | .readRes => 6
  | .setRes => 4
  | .readParams => 28
  | .setGateThr => 4
  | .setMaxgateNoone => 4
  | .factoryReset => 4
  | .reboot => 4
  | .btOn => 4
  | .btOff => 4

/-- The MAC bytes of a READ_MAC Ack, `P[4..9]` in wire order (R131). -/
def ackMac (p : List Byte) : Vector Byte 6 :=
  #v[byteAt p 4, byteAt p 5, byteAt p 6, byteAt p 7, byteAt p 8, byteAt p 9]

/-- The resolution of a READ_RES Ack (R133). -/
def resolutionOfCode (r : Word16) : Resolution :=
  if r = 0 then .coarse75 else if r = 1 then .fine20 else .unknown

/-- `n = min(p[5] + 1, 9)`, the threshold array size of a READ_PARAMS Ack (43_ack_decoder.md R271). -/
def thresholdCount (p : List Byte) : Nat := min ((byteAt p 5).toNat + 1) gmax

/-- `max` of two gate numbers (10_state.md R54). -/
def maxGate (a b : Byte) : Byte := if a.toNat < b.toNat then b else a

/-! ### Command parameters -/

/-- The parameter layout of three 32-bit words with their keys 0, 1, 2 (30_encoding.md R125, R126). -/
def keyedParams (a b c : Word32) : List Byte :=
  bytes16 0x0000 ++ bytes32 a ++ bytes16 0x0001 ++ bytes32 b ++ bytes16 0x0002 ++ bytes32 c

/-- `params(ENTER_CFG)`, `params(READ_MAC)` and `params(BT_ON)`: `01 00` (R122, R123, R127). -/
def paramsOne : List Byte := bytes16 0x0001

/-- `params(BT_OFF)`: `00 00` (R127). -/
def paramsZero : List Byte := bytes16 0x0000

/-- `params(SET_RES, r)` (R124). -/
def paramsSetRes (r : Word16) : List Byte := bytes16 r

/-- `params(SET_GATE_THR, gate, mov, stat)` (R125). -/
def paramsSetGateThr (gate mov stat : Word32) : List Byte := keyedParams gate mov stat

/-- `params(SET_MAXGATE_NOONE, mm, ms, t)` (R126). -/
def paramsSetMaxgateNoone (mm ms t : Word32) : List Byte := keyedParams mm ms t

/-- The whole command frame (R111): the Ack/Command magics around the id and the parameters. -/
def commandFrame (c : Cmd) (params : List Byte) : List Byte := frameBytes .ack (bytes16 c.id ++ params)

end Sys2Proof.Machine
end

