-- ==== Sys2Proof/Machine/Flags.lean ====
section
/-! DEFINITION. The flag computations: presence flags from the status byte (30_encoding.md R108), the gating class (R121), the
match flag of an Ack (41_classifier.md R207), the derived views (10_state.md R48, R58), the numeric codes of the enumerations
(R14, R32, R53, R58; 60_exceptions.md R351), and the decoding context of a state. The block has no arithmetic flags (R62). -/

namespace Sys2Proof.Machine

open Sys2Proof

/-- `MOV_PRES = ST[0]` (R108). -/
def statusMoving (st : Byte) : Bool := st.getLsbD 0

/-- `STAT_PRES = ST[1]` (R108). -/
def statusStationary (st : Byte) : Bool := st.getLsbD 1

/-- A command is gated when it requires `IN_CFG = 1` (30_encoding.md R120, R121). -/
def gated : Cmd → Bool
  | .enterCfg => false
  | .exitCfg => false
  | .enhOn => true
  | .enhOff => true
  | .readMac => false
  | .readFw => false
  | .readRes => false
  | .setRes => true
  | .readParams => false
  | .setGateThr => true
  | .setMaxgateNoone => true
  | .factoryReset => true
  | .reboot => true
  | .btOn => true
  | .btOff => true

/-- The pending request, if one is outstanding (10_state.md R55). -/
def State.pending (s : State) : Option Cmd := if s.pendValid then some s.pendCmd else none

/-- The context in which a frame that completes in this state is decoded. -/
def State.ctx (s : State) : DecodeCtx where
  profile := s.inst.profile
  subBasic := s.inst.subBasic
  subEnh := s.inst.subEnh
  lmax := s.inst.lmax
  pend := s.pending

/-- `matched` (41_classifier.md R207). -/
def State.matched (s : State) (aid : Word16) : Bool :=
  s.pendValid && aid == s.pendCmd.ackId s.inst.profile

/-- The Data frames of this state are blocked (41_classifier.md R203). -/
def State.dataBlocked (s : State) : Bool := s.inCfg && s.inst.dataInCfg == .block

/-- `CFG_STATE` (10_state.md R58). -/
inductive CfgState where
  | idle
  | entering
  | configuring
  | exiting
deriving DecidableEq, Repr

/-- The derived view `CFG_STATE` (R58). -/
def State.cfgState (s : State) : CfgState :=
  if s.pendValid && s.pendCmd == .enterCfg then .entering
  else if s.pendValid && s.pendCmd == .exitCfg then .exiting
  else if s.inCfg then .configuring
  else .idle

/-- `presenceDetected = MOV_PRES | STAT_PRES` (10_state.md R48). -/
def Snapshot.presenceDetected (v : Snapshot) : Bool := v.movPres || v.statPres

/-- `movingTargetDetected` (R48). -/
def Snapshot.movingTargetDetected (v : Snapshot) : Bool := v.movPres

/-- `stationaryTargetDetected` (R48). -/
def Snapshot.stationaryTargetDetected (v : Snapshot) : Bool := v.statPres

/-- `movingTargetDistance` (R48). -/
def Snapshot.movingTargetDistance (v : Snapshot) : Word16 := v.movDist

/-! ### Numeric codes -/

/-- The codes of `ASM_STATE` (R32). -/
def AsmState.code : AsmState → Nat
  | .seekHeader => 0
  | .readLength => 1
  | .readPayload => 2
  | .readTail => 3

/-- The codes of `RES` (R53). -/
def Resolution.code : Resolution → Nat
  | .unknown => 0
  | .fine20 => 1
  | .coarse75 => 2

/-- The codes of `CFG_STATE` (R58). -/
def CfgState.code : CfgState → Nat
  | .idle => 0
  | .entering => 1
  | .configuring => 2
  | .exiting => 3

/-- The event codes (60_exceptions.md R351). -/
def Event.code : Event → Nat
  | .frameSync => 1
  | .lengthOverflow => 2
  | .tailMismatch => 3
  | .unknownSubtype => 4
  | .commandTimeout => 5
  | .commandRejected => 6
  | .transportUnavailable => 7
  | .shortPayload => 8
  | .badMarker => 9
  | .configGated => 10
  | .txBusy => 11
  | .unsolicitedAck => 12
  | .dataBlocked => 13

/-- A one-bit register as RD returns it. -/
def bit (b : Bool) : Word32 := if b then 1 else 0

/-- A numeric code or count as RD returns it. -/
def num (n : Nat) : Word32 := BitVec.ofNat 32 n

/-- An array element as RD returns it: 0 at or beyond the count (44_host_ops.md R306). -/
def element (v : List Byte) (g : Word32) : Word32 := (v.getD g.toNat 0).setWidth 32

/-- The register of an RD index (10_state.md R60) with element index `g`, zero-extended; a reserved index reads 0
(44_host_ops.md R306). -/
def State.readReg (s : State) (i g : Word32) : Word32 :=
  match i.toNat with
  | 0x10 => bit s.snap.movPres
  | 0x11 => bit s.snap.statPres
  | 0x12 => s.snap.movDist.setWidth 32
  | 0x13 => s.snap.movSig.setWidth 32
  | 0x14 => s.snap.statDist.setWidth 32
  | 0x15 => s.snap.statSig.setWidth 32
  | 0x16 => s.snap.detDist.setWidth 32
  | 0x17 => s.snap.ts
  | 0x18 => num s.snap.movSigs.length
  | 0x19 => element s.snap.movSigs g
  | 0x1A => num s.snap.statSigs.length
  | 0x1B => element s.snap.statSigs g
  | 0x20 => bit s.cfg.protoValid
  | 0x21 => s.cfg.protoVer.setWidth 32
  | 0x22 => bit s.cfg.fwValid
  | 0x23 => s.cfg.fwType.setWidth 32
  | 0x24 => s.cfg.fwMajor.setWidth 32
  | 0x25 => s.cfg.fwMinor
  | 0x26 => bit s.cfg.macValid
  | 0x27 => element s.cfg.mac.toList g
  | 0x28 => num s.cfg.res.code
  | 0x29 => bit s.cfg.paramValid
  | 0x2A => s.cfg.maxMov.setWidth 32
  | 0x2B => s.cfg.maxStat.setWidth 32
  | 0x2C => s.cfg.range.setWidth 32
  | 0x2D => s.cfg.noone.setWidth 32
  | 0x2E => num s.cfg.movThr.length
  | 0x2F => element s.cfg.movThr g
  | 0x30 => num s.cfg.statThr.length
  | 0x31 => element s.cfg.statThr g
  | 0x38 => bit s.inCfg
  | 0x39 => bit s.enhanced
  | 0x3A => bit s.pendValid
  | 0x3B => s.pendCmd.code.setWidth 32
  | 0x3C => num s.cfgState.code
  | _ => 0

end Sys2Proof.Machine
end

