-- ==== Sys2Proof/Machine/Ops.lean ====
section
/-! DEFINITION. The named operations over the payload buffer, the FIFOs, the output ports and the registers, and the one
shared operation by which an error resolves (60_exceptions.md R350, R365). There is no return from an error (R366): the next
byte is processed by the ordinary rule of the state reached. -/

namespace Sys2Proof.Machine

open Sys2Proof

/-! ### The payload buffer (20_memory.md R80 to R85) -/

/-- The byte at an index, `none` where nothing was written (assumption log 7). -/
def Memory.read : Memory → Nat → Option Byte
  | [], _ => none
  | (a, v) :: m, i => if a = i then some v else Memory.read m i

/-- `PbufWrite(i, b)` keeping addresses strictly rising. -/
def Memory.write : Memory → Nat → Byte → Memory
  | [], i, b => [(i, b)]
  | (a, v) :: m, i, b =>
    if i < a then (i, b) :: (a, v) :: m
    else if i = a then (a, b) :: m
    else (a, v) :: Memory.write m i b

/-- The canonical form: addresses strictly rising. An unlisted address has no value, so no entry can equal it. -/
abbrev Memory.wf (m : Memory) : Prop := m.Pairwise (fun c d => c.1 < d.1)

/-- Every listed address is below a bound. -/
abbrev Memory.below (m : Memory) (n : Nat) : Prop := ∀ c ∈ m, c.1 < n

/-- `PBUF[0..n-1]`, `none` if one of the bytes was never written (20_memory.md R84). -/
def Memory.readFirst (m : Memory) : Nat → Option (List Byte)
  | 0 => some []
  | n + 1 =>
    match Memory.readFirst m n, m.read n with
    | some p, some b => some (p ++ [b])
    | _, _ => none

/-- The memory that holds a byte sequence from index 0 on. -/
def Memory.ofList (p : List Byte) : Memory := (List.range p.length).zip p

/-! ### Windows -/

/-- Writes byte `i` of a window; an index past 3 is none of its bytes. -/
def windowSet (q : Quad) (i : Nat) (b : Byte) : Quad :=
  match i with
  | 0 => { q with b0 := b }
  | 1 => { q with b1 := b }
  | 2 => { q with b2 := b }
  | 3 => { q with b3 := b }
  | _ => q

/-- `WIN[0..2] <- WIN[1..3]; WIN[3] <- b`: the oldest byte is dropped (40_assembler.md R161). -/
def windowShift (q : Quad) (b : Byte) : Quad := ⟨q.b1, q.b2, q.b3, b⟩

/-- The header test (40_assembler.md R162, R163): on a match the frame's family is kept, the window emptied and the length
awaited; otherwise nothing changes. -/
def Asm.headerTest (a : Asm) : Asm :=
  if a.wn = 4 then
    match headerOf a.win with
    | some k => { a with kind := k, state := .readLength, wn := 0, ln := 0 }
    | none => a
  else a

/-! ### FIFOs and ports -/

/-- `TxPush(seq)` (20_memory.md R87). -/
def State.txPush (s : State) (bs : List Byte) : State := { s with tx := s.tx ++ bs }

/-- The transport appends to the receive FIFO (44_host_ops.md R330). -/
def State.rxPush (s : State) (bs : List Byte) : State := { s with rx := s.rx ++ bs }

/-- The transport takes bytes from the head of the transmit FIFO (20_memory.md R87). -/
def State.txDrain (s : State) (n : Nat) : State := { s with tx := s.tx.drop n }

/-- `emit E`: adds an event to the step's event output (00_scope.md R13, 60_exceptions.md R352). -/
def State.emit (s : State) (e : Event) : State := { s with events := s.events ++ [e] }

/-- A host operation ends and its result stands on the `host_result` port (44_host_ops.md R300). -/
def State.endOp (s : State) (r : OpResult) : State := { s with result := some r }

/-- CHECK returns (44_host_ops.md R302): the loop ends and the result record stands on the port (R303). -/
def State.endCheck (s : State) (r : CheckResult) : State :=
  { s with checking := false, result := some (.check r) }

/-! ### Requests (10_state.md R55) -/

/-- `PEND_CMD <- c; PEND_VALID <- 1` (44_host_ops.md R310). -/
def State.setPending (s : State) (c : Cmd) : State := { s with pendCmd := c, pendValid := true }

/-- `PEND_VALID <- 0`; `PEND_CMD` keeps its value, which has no meaning then (10_state.md R55). -/
def State.clearPending (s : State) : State := { s with pendValid := false }

/-! ### Errors (60_exceptions.md R350 to R367) -/

/-- The assembler's resynchronisation per event (R365): LENGTH_OVERFLOW empties the window (40_assembler.md R166); TAIL_MISMATCH
makes the tail window the header window and tests it (R171); no other event touches the assembler. -/
def Asm.resync (a : Asm) : Event → Asm
  | .lengthOverflow => { a with state := .seekHeader, wn := 0 }
  | .tailMismatch => { a with state := .seekHeader, win := a.twin, wn := 4 }.headerTest
  | _ => a

/-- TIMEOUT's resolution (44_host_ops.md R307): a pending EXIT_CFG forces `IN_CFG` to 0, and the request ends. -/
def State.expirePending (s : State) : State :=
  { s with inCfg := s.inCfg && !(s.pendValid && s.pendCmd == .exitCfg), pendValid := false }

/-- Taking an error (R365), the block's only "trap entry": nothing is saved and no mode changes. The assembler resyncs as its
event says, a timeout resolves the pending request, and every event but the three that never stand in an event list is
emitted (R351: FRAME_SYNC R353, COMMAND_REJECTED R360, TRANSPORT_UNAVAILABLE R361). -/
def State.takeError (s : State) (e : Event) : State :=
  match e with
  | .frameSync => s
  | .commandRejected => s.clearPending
  | .transportUnavailable => s
  | .commandTimeout => s.expirePending.emit e
  | .lengthOverflow => { s with asm := s.asm.resync e }.emit e
  | .tailMismatch => { s with asm := s.asm.resync e }.emit e
  | .unknownSubtype => s.emit e
  | .shortPayload => s.emit e
  | .badMarker => s.emit e
  | .configGated => s.emit e
  | .txBusy => s.emit e
  | .unsolicitedAck => s.emit e
  | .dataBlocked => s.emit e

/-- A completed frame is discarded (R350): the event, CHECK ends with FAIL, and nothing else is written (41_classifier.md R210). -/
def State.discard (s : State) (e : Event) : State := (s.takeError e).endCheck .fail

/-- A transmit operation is turned away before any byte is written (60_exceptions.md R362). -/
def State.turnAway (s : State) (e : Event) (r : TxResult) : State := (s.takeError e).endOp (.tx r)

/-! ### Free values (assumption log 6) -/

/-- Four free bytes, from draw `n` on. -/
def freeQuad (n : Nat) : Quad :=
  ⟨Config.freeByte n, Config.freeByte (n + 1), Config.freeByte (n + 2), Config.freeByte (n + 3)⟩

/-- The assembler after a RESET operation (70_reset_and_hazards.md R390): SEEK_HEADER, every count 0; `WIN`, `TWIN` and `LB` are
unspecified, so free values, and no byte of `PBUF` has a value. -/
def Asm.afterReset (n : Nat) : Asm :=
  { Asm.clear with win := freeQuad n, twin := freeQuad (n + 4), lb := Config.freeByte (n + 8) }

/-- RESET (R390): every register of the block takes its reset value (10_state.md R72); the FIFOs, the time input and the
instance are not the block's registers (R391). -/
def State.resetRegisters (s : State) : State :=
  { s with
    asm := Asm.afterReset s.draws
    draws := s.draws + 9
    snap := .empty
    cfg := .unknown
    inCfg := false
    enhanced := false
    pendValid := false
    pendCmd := .enterCfg }

end Sys2Proof.Machine
end

