-- ==== Sys2Proof/Machine/AckFrames.lean ====
section
/-! DEFINITION. The meanings of the Ack rows (41_classifier.md R205 to R209, 43_ack_decoder.md R260 to R278). -/

namespace Sys2Proof.Machine

open Sys2Proof

/-- The Ack decoder of a matched Ack (R260 to R262, R278): a nonzero status is a rejection that ends the request and writes
nothing else; a success too short for its return data is discarded and the request stays pending; an accepted Ack
has its effect, ends the request and reports id and status. -/
def acceptAck (c : Cmd) (effect : State → State) (p : List Byte) (s : State) : Host.Outcome State Fault Refusal :=
  if ackStatus p ≠ 0 then
    .next ((s.takeError .commandRejected).endCheck (.ack (ackAid p) (ackStatus p)))
  else if p.length < ackNeed c then .next (s.discard .shortPayload)
  else .next ((effect s).clearPending.endCheck (.ack (ackAid p) 0))

/-- The effect of ENTER_CFG (R263): config mode begins, the protocol version is known. `le16(p, 6)` is read by no rule. -/
def effectEnterCfg (p : List Byte) (s : State) : State :=
  { s with inCfg := true, cfg := { s.cfg with protoVer := le16 p 4, protoValid := true } }

/-- The effect of READ_MAC (R267): the bytes in wire order. -/
def effectReadMac (p : List Byte) (s : State) : State :=
  { s with cfg := { s.cfg with mac := ackMac p, macValid := true } }

/-- The effect of READ_FW (R268). -/
def effectReadFw (p : List Byte) (s : State) : State :=
  { s with cfg := { s.cfg with
      fwType := le16 p 4, fwMajor := le16 p 6, fwMinor := le32 p 8, fwValid := true } }

/-- The effect of READ_RES (R269). -/
def effectReadRes (p : List Byte) (s : State) : State :=
  { s with cfg := { s.cfg with res := resolutionOfCode (le16 p 4) } }

/-- The effect of READ_PARAMS (R271): the whole parameter group in one step. `p[4]` is not checked. -/
def effectReadParams (p : List Byte) (s : State) : State :=
  let n := thresholdCount p
  { s with cfg := { s.cfg with
      maxMov := byteAt p 6, maxStat := byteAt p 7, range := maxGate (byteAt p 6) (byteAt p 7)
      movThr := slice p 8 n, statThr := slice p 17 n, noone := le16 p 26, paramValid := true } }

/-- ACK.ENTER_CFG (R263). -/
def execAckEnterCfg (p : List Byte) (s : State) : Host.Outcome State Fault Refusal :=
  acceptAck .enterCfg (effectEnterCfg p) p s

/-- ACK.EXIT_CFG (R264). -/
def execAckExitCfg (p : List Byte) (s : State) : Host.Outcome State Fault Refusal :=
  acceptAck .exitCfg (fun s => { s with inCfg := false }) p s

/-- ACK.ENH_ON (R265). -/
def execAckEnhOn (p : List Byte) (s : State) : Host.Outcome State Fault Refusal :=
  acceptAck .enhOn (fun s => { s with enhanced := true }) p s

/-- ACK.ENH_OFF (R266). -/
def execAckEnhOff (p : List Byte) (s : State) : Host.Outcome State Fault Refusal :=
  acceptAck .enhOff (fun s => { s with enhanced := false }) p s

/-- ACK.READ_MAC (R267). -/
def execAckReadMac (p : List Byte) (s : State) : Host.Outcome State Fault Refusal :=
  acceptAck .readMac (effectReadMac p) p s

/-- ACK.READ_FW (R268). -/
def execAckReadFw (p : List Byte) (s : State) : Host.Outcome State Fault Refusal :=
  acceptAck .readFw (effectReadFw p) p s

/-- ACK.READ_RES (R269). -/
def execAckReadRes (p : List Byte) (s : State) : Host.Outcome State Fault Refusal :=
  acceptAck .readRes (effectReadRes p) p s

/-- ACK.SET_RES (R270): no register is written; the host learns the new value by READ_RES. -/
def execAckSetRes (p : List Byte) (s : State) : Host.Outcome State Fault Refusal :=
  acceptAck .setRes id p s

/-- ACK.READ_PARAMS (R271). -/
def execAckReadParams (p : List Byte) (s : State) : Host.Outcome State Fault Refusal :=
  acceptAck .readParams (effectReadParams p) p s

/-- ACK.SET_GATE_THR (R272): no register is written. -/
def execAckSetGateThr (p : List Byte) (s : State) : Host.Outcome State Fault Refusal :=
  acceptAck .setGateThr id p s

/-- ACK.SET_MAXGATE_NOONE (R273): no register is written. -/
def execAckSetMaxgateNoone (p : List Byte) (s : State) : Host.Outcome State Fault Refusal :=
  acceptAck .setMaxgateNoone id p s

/-- ACK.FACTORY_RESET (R274): no register is written. -/
def execAckFactoryReset (p : List Byte) (s : State) : Host.Outcome State Fault Refusal :=
  acceptAck .factoryReset id p s

/-- ACK.REBOOT (R275): no register is written; `IN_CFG` stays. -/
def execAckReboot (p : List Byte) (s : State) : Host.Outcome State Fault Refusal :=
  acceptAck .reboot id p s

/-- ACK.BT_ON (R276): no register is written. -/
def execAckBtOn (p : List Byte) (s : State) : Host.Outcome State Fault Refusal :=
  acceptAck .btOn id p s

/-- ACK.BT_OFF (R277): no register is written. -/
def execAckBtOff (p : List Byte) (s : State) : Host.Outcome State Fault Refusal :=
  acceptAck .btOff id p s

/-- The CHECK result of an unsolicited Ack, `UNSOL_ACK_RESULT` (41_classifier.md R208). -/
def unsolicitedResult (c : Instance) : CheckResult :=
  match c.unsolAckResult with
  | .data => .data
  | .fail => .fail

/-- ACK.UNSOLICITED (41_classifier.md R205, R208): under 4 bytes the frame is discarded; otherwise it is ignored and no register
is written. -/
def execAckUnsolicited (p : List Byte) (s : State) : Host.Outcome State Fault Refusal :=
  if p.length < 4 then .next (s.discard .shortPayload)
  else .next ((s.takeError .unsolicitedAck).endCheck (unsolicitedResult s.inst))

end Sys2Proof.Machine
end

