-- ==== Sys2Proof/Machine/DataFrames.lean ====
section
/-! DEFINITION. The meanings of the Data rows (41_classifier.md R201 to R204, 42_data_decoder.md R230 to R239). Each runs the checks
that its row still has to pass, in the order of 41_classifier.md R211, and ends the CHECK in progress with its result. -/

namespace Sys2Proof.Machine

open Sys2Proof

/-- The candidate snapshot of a Data payload (R231, R232, R234, R235) at the time it completes (10_state.md R45). Magnitudes are
stored as received (R237). -/
def snapshotOf (f : BasicFields) (movSigs statSigs : GateArray) (now : Word32) : Snapshot where
  movPres := statusMoving f.st
  statPres := statusStationary f.st
  movDist := f.md
  movSig := f.ms
  statDist := f.sd
  statSig := f.ss
  detDist := f.dd
  ts := now
  movSigs := movSigs
  statSigs := statSigs

/-- `COMMIT(s)` (R236): the only writer of the snapshot, which it replaces whole; the result is DATA. -/
def State.commit (s : State) (f : BasicFields) (movSigs statSigs : GateArray) : State :=
  { s with snap := snapshotOf f movSigs statSigs s.timeNow }.endCheck .data

/-- The config-mode block (41_classifier.md R203) before a Data row's own checks. -/
def unlessBlocked (s : State) (k : State → Host.Outcome State Fault Refusal) : Host.Outcome State Fault Refusal :=
  if s.dataBlocked then .next (s.discard .dataBlocked) else k s

/-- The layout's length check (R231 to R235): a shorter payload is discarded, a longer one accepted (30_encoding.md R137). -/
def needBytes (n : Nat) (p : List Byte) (s : State) (k : State → Host.Outcome State Fault Refusal) :
    Host.Outcome State Fault Refusal :=
  if p.length < n then .next (s.discard .shortPayload) else k s

/-- The VENDOR head marker (R233). -/
def needMarker (p : List Byte) (s : State) (k : State → Host.Outcome State Fault Refusal) :
    Host.Outcome State Fault Refusal :=
  needBytes 2 p s fun s => if byteAt p 1 ≠ 0xAA then .next (s.discard .badMarker) else k s

/-- DATA.BASIC, profile DOC (R231). -/
def execDataBasic (p : List Byte) (s : State) : Host.Outcome State Fault Refusal :=
  unlessBlocked s fun s => needBytes 10 p s fun s => .next (s.commit (basicFields p 1) [] [])

/-- DATA.ENHANCED, profile DOC (R232): the arrays are sized by `RANGE` and `PARAM_VALID` when the frame completes. -/
def execDataEnhanced (p : List Byte) (s : State) : Host.Outcome State Fault Refusal :=
  unlessBlocked s fun s =>
    let ng := gateCount s.cfg
    needBytes (10 + 2 * ng) p s fun s =>
      .next (s.commit (basicFields p 1) (slice p 10 ng) (slice p (10 + ng) ng))

/-- DATA.BASIC, profile VENDOR (R233, R234). -/
def execDataBasicVendor (p : List Byte) (s : State) : Host.Outcome State Fault Refusal :=
  unlessBlocked s fun s => needMarker p s fun s => needBytes 11 p s fun s =>
    .next (s.commit (basicFields p 2) [] [])

/-- DATA.ENHANCED, profile VENDOR (R233, R235): the frame sizes its own arrays; the first 9 entries are stored. -/
def execDataEnhancedVendor (p : List Byte) (s : State) : Host.Outcome State Fault Refusal :=
  unlessBlocked s fun s => needMarker p s fun s => needBytes 13 p s fun s =>
    let mm := vendorMm p
    let ms := vendorMs p
    needBytes (15 + mm + ms) p s fun s =>
      .next (s.commit (basicFields p 2) (slice p 13 (min (mm + 1) gmax)) (slice p (14 + mm) (min (ms + 1) gmax)))

/-- DATA.BAD_MARKER, profile VENDOR (R233): no head marker, or no byte where it should be. -/
def execDataBadMarkerVendor (p : List Byte) (s : State) : Host.Outcome State Fault Refusal :=
  unlessBlocked s fun s => needBytes 2 p s fun s => .next (s.discard .badMarker)

/-- DATA.RESERVED_SUBTYPE (41_classifier.md R201, R202): an empty payload first, then an unknown sub-type. These checks come before
the config-mode block (R211). -/
def execDataReservedSubtype (p : List Byte) (s : State) : Host.Outcome State Fault Refusal :=
  needBytes 1 p s fun s => .next (s.discard .unknownSubtype)

end Sys2Proof.Machine
end

