-- ==== Sys2Proof/Machine/HostOps.lean ====
section
/-! DEFINITION. The meanings of RESET, CHECK, TIMEOUT, RD, the reserved host operations, and the transport step FEED
(44_host_ops.md R300 to R308, R330; 70_reset_and_hazards.md R390). -/

namespace Sys2Proof.Machine

open Sys2Proof

/-- RESET (R390). -/
def execReset (s : State) : Host.Outcome State Fault Refusal := .next (s.resetRegisters.endOp .done)

/-- CHECK (R302) begins: its loop is entered and has no result yet. Each round of the loop (`RxAvail()` test, `RxPop()`, byte
step, classification) is one engine step, so that transport steps can fall before the first test and between any two
rounds (R305); Machine/Fetch.lean's `engineTurn` is the round and the completed frame's meaning ends the loop. -/
def execCheck (s : State) : Host.Outcome State Fault Refusal := .next { s with checking := true, result := none }

/-- TIMEOUT (R307): with nothing pending, nothing changes and no event is raised. -/
def execTimeout (s : State) : Host.Outcome State Fault Refusal :=
  .next ((if s.pendValid then s.takeError .commandTimeout else s).endOp .done)

/-- RD (R306): no side effect. -/
def execRd (i g : Word32) (s : State) : Host.Outcome State Fault Refusal :=
  .next (s.endOp (.value (s.readReg i g)))

/-- The reserved host operation code 5 (R308): the spec has no step for it. -/
def execReservedOp5 (_s : State) : Host.Outcome State Fault Refusal := .refused .reservedHostOp

/-- The reserved host operation code 6 (R308): the spec has no step for it. -/
def execReservedOp6 (_s : State) : Host.Outcome State Fault Refusal := .refused .reservedHostOp

/-- The reserved host operation code 7 (R308): the spec has no step for it. -/
def execReservedOp7 (_s : State) : Host.Outcome State Fault Refusal := .refused .reservedHostOp

/-- FEED (R330): the bytes go to the tail of the receive FIFO; no register of the block is written. -/
def execFeed (bs : List Byte) (s : State) : Host.Outcome State Fault Refusal := .next (s.rxPush bs)

end Sys2Proof.Machine
end

