-- ==== Sys2Proof/Machine/Transmit.lean ====
section
/-! DEFINITION. The meanings of the transmit rows (44_host_ops.md R310 to R326). -/

namespace Sys2Proof.Machine

open Sys2Proof

/-- TX, common part (R310): BUSY while a request is pending, GATED outside config mode, else the whole command frame is
appended to the transmit FIFO and the request becomes pending. Operands are not validated (R326). -/
def transmit (c : Cmd) (params : List Byte) (s : State) : Host.Outcome State Fault Refusal :=
  if s.pendValid then .next (s.turnAway .txBusy .busy)
  else if gated c && !s.inCfg then .next (s.turnAway .configGated .gated)
  else .next (((s.txPush (commandFrame c params)).setPending c).endOp (.tx .sent))

/-- TX ENTER_CFG (R311). -/
def execTxEnterCfg (s : State) : Host.Outcome State Fault Refusal := transmit .enterCfg paramsOne s

/-- TX EXIT_CFG (R312). -/
def execTxExitCfg (s : State) : Host.Outcome State Fault Refusal := transmit .exitCfg [] s

/-- TX ENH_ON (R313). -/
def execTxEnhOn (s : State) : Host.Outcome State Fault Refusal := transmit .enhOn [] s

/-- TX ENH_OFF (R314). -/
def execTxEnhOff (s : State) : Host.Outcome State Fault Refusal := transmit .enhOff [] s

/-- TX READ_MAC (R315). -/
def execTxReadMac (s : State) : Host.Outcome State Fault Refusal := transmit .readMac paramsOne s

/-- TX READ_FW (R316). -/
def execTxReadFw (s : State) : Host.Outcome State Fault Refusal := transmit .readFw [] s

/-- TX READ_RES (R317). -/
def execTxReadRes (s : State) : Host.Outcome State Fault Refusal := transmit .readRes [] s

/-- TX SET_RES (R318). -/
def execTxSetRes (r : Word16) (s : State) : Host.Outcome State Fault Refusal :=
  transmit .setRes (paramsSetRes r) s

/-- TX READ_PARAMS (R319). -/
def execTxReadParams (s : State) : Host.Outcome State Fault Refusal := transmit .readParams [] s

/-- TX SET_GATE_THR (R320). -/
def execTxSetGateThr (gate mov stat : Word32) (s : State) : Host.Outcome State Fault Refusal :=
  transmit .setGateThr (paramsSetGateThr gate mov stat) s

/-- TX SET_MAXGATE_NOONE (R321). -/
def execTxSetMaxgateNoone (mm ms t : Word32) (s : State) : Host.Outcome State Fault Refusal :=
  transmit .setMaxgateNoone (paramsSetMaxgateNoone mm ms t) s

/-- TX FACTORY_RESET (R322). -/
def execTxFactoryReset (s : State) : Host.Outcome State Fault Refusal := transmit .factoryReset [] s

/-- TX REBOOT (R323). -/
def execTxReboot (s : State) : Host.Outcome State Fault Refusal := transmit .reboot [] s

/-- TX BT_ON (R324). -/
def execTxBtOn (s : State) : Host.Outcome State Fault Refusal := transmit .btOn paramsOne s

/-- TX BT_OFF (R325). -/
def execTxBtOff (s : State) : Host.Outcome State Fault Refusal := transmit .btOff paramsZero s

/-- TX with the reserved command code 15 (R326): the spec has no step for it. -/
def execTxReserved15 (_s : State) : Host.Outcome State Fault Refusal := .refused .reservedCommand

end Sys2Proof.Machine
end

