-- ==== Sys2Proof/Machine/Dispatch.lean ====
section
/-! DEFINITION. The meaning of each instruction, one arm per row of opcode_table.json. -/

namespace Sys2Proof.Machine

def exec (i : Instr) (s : State) : Host.Outcome State Fault Refusal :=
  match i with
  | .dataBasic p => Sys2Proof.Machine.execDataBasic p s
  | .dataEnhanced p => Sys2Proof.Machine.execDataEnhanced p s
  | .dataBasicVendor p => Sys2Proof.Machine.execDataBasicVendor p s
  | .dataEnhancedVendor p => Sys2Proof.Machine.execDataEnhancedVendor p s
  | .dataBadMarkerVendor p => Sys2Proof.Machine.execDataBadMarkerVendor p s
  | .dataReservedSubtype p => Sys2Proof.Machine.execDataReservedSubtype p s
  | .ackEnterCfg p => Sys2Proof.Machine.execAckEnterCfg p s
  | .ackExitCfg p => Sys2Proof.Machine.execAckExitCfg p s
  | .ackEnhOn p => Sys2Proof.Machine.execAckEnhOn p s
  | .ackEnhOff p => Sys2Proof.Machine.execAckEnhOff p s
  | .ackReadMac p => Sys2Proof.Machine.execAckReadMac p s
  | .ackReadFw p => Sys2Proof.Machine.execAckReadFw p s
  | .ackReadRes p => Sys2Proof.Machine.execAckReadRes p s
  | .ackSetRes p => Sys2Proof.Machine.execAckSetRes p s
  | .ackReadParams p => Sys2Proof.Machine.execAckReadParams p s
  | .ackSetGateThr p => Sys2Proof.Machine.execAckSetGateThr p s
  | .ackSetMaxgateNoone p => Sys2Proof.Machine.execAckSetMaxgateNoone p s
  | .ackFactoryReset p => Sys2Proof.Machine.execAckFactoryReset p s
  | .ackReboot p => Sys2Proof.Machine.execAckReboot p s
  | .ackBtOn p => Sys2Proof.Machine.execAckBtOn p s
  | .ackBtOff p => Sys2Proof.Machine.execAckBtOff p s
  | .ackUnsolicited p => Sys2Proof.Machine.execAckUnsolicited p s
  | .txEnterCfg => Sys2Proof.Machine.execTxEnterCfg s
  | .txExitCfg => Sys2Proof.Machine.execTxExitCfg s
  | .txEnhOn => Sys2Proof.Machine.execTxEnhOn s
  | .txEnhOff => Sys2Proof.Machine.execTxEnhOff s
  | .txReadMac => Sys2Proof.Machine.execTxReadMac s
  | .txReadFw => Sys2Proof.Machine.execTxReadFw s
  | .txReadRes => Sys2Proof.Machine.execTxReadRes s
  | .txSetRes r => Sys2Proof.Machine.execTxSetRes r s
  | .txReadParams => Sys2Proof.Machine.execTxReadParams s
  | .txSetGateThr gate mov stat => Sys2Proof.Machine.execTxSetGateThr gate mov stat s
  | .txSetMaxgateNoone mm ms t => Sys2Proof.Machine.execTxSetMaxgateNoone mm ms t s
  | .txFactoryReset => Sys2Proof.Machine.execTxFactoryReset s
  | .txReboot => Sys2Proof.Machine.execTxReboot s
  | .txBtOn => Sys2Proof.Machine.execTxBtOn s
  | .txBtOff => Sys2Proof.Machine.execTxBtOff s
  | .txReserved15 => Sys2Proof.Machine.execTxReserved15 s
  | .reset => Sys2Proof.Machine.execReset s
  | .check => Sys2Proof.Machine.execCheck s
  | .timeout => Sys2Proof.Machine.execTimeout s
  | .rd idx g => Sys2Proof.Machine.execRd idx g s
  | .reservedOp5 => Sys2Proof.Machine.execReservedOp5 s
  | .reservedOp6 => Sys2Proof.Machine.execReservedOp6 s
  | .reservedOp7 => Sys2Proof.Machine.execReservedOp7 s
  | .feed bs => Sys2Proof.Machine.execFeed bs s

end Sys2Proof.Machine
end

