-- ==== Sys2Proof/Machine/Assembler.lean ====
section
/-! DEFINITION. The frame assembler: `BYTE_STEP(b)` (40_assembler.md R160 to R173), a function of the byte, the instance and the
assembler alone. -/

namespace Sys2Proof.Machine

open Sys2Proof

/-- What a byte step answers (R160): `NONE`, `NONE` with an error whose resolution is still to be taken (60_exceptions.md R365), or
`COMPLETE(KIND)` with the payload (`RawFrame`, R170); a fault in states that no run reaches. -/
inductive ByteOut where
  | none (a : Asm)
  | error (e : Event) (a : Asm)
  | complete (k : FrameKind) (p : List Byte) (a : Asm)
  | fault (f : Fault)
deriving DecidableEq, Repr

/-- SEEK (R161 to R163): the byte enters the window, dropping the oldest when it is full, and the window is tested. -/
def seekStep (b : Byte) (a : Asm) : ByteOut :=
  .none (if a.wn < 4 then { a with win := windowSet a.win a.wn b, wn := a.wn + 1 }
         else { a with win := windowShift a.win b }).headerTest

/-- LENGTH accepted (R167). -/
def acceptLength (a : Asm) : Asm :=
  { a with plen := 0, tn := 0, state := if a.len = 0 then .readTail else .readPayload }

/-- LENGTH (R164 to R167): the low byte, then the high byte and the overflow guard. -/
def lengthStep (c : Instance) (b : Byte) (a : Asm) : ByteOut :=
  if a.ln = 0 then .none { a with lb := b, ln := 1 }
  else
    let a' := { a with len := le16 [a.lb, b] 0, ln := 0 }
    if c.lmax < a'.len.toNat then .error .lengthOverflow a' else .none (acceptLength a')

/-- PAYLOAD (R168): a one-byte append to `PBUF`; the last payload byte leads to READ_TAIL. -/
def payloadStep (c : Instance) (b : Byte) (a : Asm) : ByteOut :=
  if c.cap ≤ a.plen.toNat then .fault .pbufOverrun
  else
    let a' := { a with pbuf := a.pbuf.write a.plen.toNat b, plen := a.plen + 1 }
    .none (if a'.plen = a'.len then { a' with state := .readTail, tn := 0 } else a')

/-- TAIL (R169 to R171): four bytes are collected before any comparison. The count returns to 0 with the fourth byte, since
`TN ≤ 3` outside a byte step (10_state.md R38; assumption log 15). -/
def tailStep (b : Byte) (a : Asm) : ByteOut :=
  let q := windowSet a.twin a.tn b
  if a.tn + 1 < 4 then .none { a with twin := q, tn := a.tn + 1 }
  else
    let a' := { a with twin := q, tn := 0 }
    if q = tailMagic a.kind then
      match a.pbuf.readFirst a.plen.toNat with
      | some p => .complete a.kind p { a' with state := .seekHeader, wn := 0 }
      | none => .fault .pbufUnwritten
    else .error .tailMismatch a'

/-- `BYTE_STEP(b)` (R160): exactly one state rule runs for each byte. -/
def byteStep (c : Instance) (b : Byte) (a : Asm) : ByteOut :=
  match a.state with
  | .seekHeader => seekStep b a
  | .readLength => lengthStep c b a
  | .readPayload => payloadStep c b a
  | .readTail => tailStep b a

/-- The result of feeding a byte sequence to the assembler alone: the completed frames in order and the end state, or a fault. -/
inductive AsmRun where
  | done (frames : List (FrameKind × List Byte)) (a : Asm)
  | fault (f : Fault)
deriving DecidableEq, Repr

/-- The assembler on a byte sequence, errors resolved (R174): what a series of byte steps does whatever CHECKs they belong to. -/
def assemble (c : Instance) : List Byte → Asm → AsmRun
  | [], a => .done [] a
  | b :: bs, a =>
    match byteStep c b a with
    | .none a' => assemble c bs a'
    | .error e a' => assemble c bs (a'.resync e)
    | .complete k p a' =>
      match assemble c bs a' with
      | .done fs a'' => .done ((k, p) :: fs) a''
      | .fault f => .fault f
    | .fault f => .fault f

end Sys2Proof.Machine
end

