-- ==== Sys2Proof/Machine/Fetch.lean ====
section
/-! DEFINITION. Which instruction a step runs: the turn that is next, the host call it carries, or the frame that the byte step of
a running CHECK completes; and how a table word is placed so that the next step runs it. -/

namespace Sys2Proof.Machine

open Sys2Proof

/-- What is fetched: nothing that is an instruction (the step's whole effect is the state given), an instruction with the state
it runs on, a fault, or a refusal. -/
inductive Fetched where
  | quiet (s : State)
  | instr (i : Instr) (s : State)
  | fault (f : Fault)
  | refuse (r : Refusal)
deriving DecidableEq, Repr

/-- One round of CHECK's loop (44_host_ops.md R302): FAIL when the receive FIFO is empty, else one byte step; an error event
resolves and the loop goes on; a completed frame is the instruction that ends the CHECK (40_assembler.md R172). -/
def engineTurn (s : State) : Fetched :=
  match s.rx with
  | [] => .quiet (s.endCheck .fail)
  | b :: rest =>
    match byteStep s.inst b s.asm with
    | .none a => .quiet { s with rx := rest, asm := a }
    | .error e a => .quiet ({ s with rx := rest, asm := a }.takeError e)
    | .complete k p a => .instr (selectRow s.ctx k p) { s with rx := rest, asm := a }
    | .fault f => .fault f

/-- The host's turn: a call begins only when no operation runs (00_scope.md R10, 70_reset_and_hazards.md R400). -/
def hostTurn (c : HostCall) (s : State) : Fetched :=
  if s.checking then .refuse .overlappingCall else .instr (decodeCall c) s

/-- The next turn. The event port shows this step's events only (60_exceptions.md R352). Without a turn of another agent a running
CHECK goes on, and an idle block does nothing (00_scope.md R8, 60_exceptions.md R379). -/
def fetch (s : State) : Fetched :=
  if !s.inst.wf then .refuse .invalidInstance
  else
    match s.turns with
    | [] =>
      let s := { s with events := [] }
      if s.checking then engineTurn s else .quiet s
    | .host c :: rest => hostTurn c { s with turns := rest, events := [] }
    | .transport bs :: rest => .instr (.feed bs) { s with turns := rest, events := [] }
    | .drain n :: rest => .quiet ({ s with turns := rest, events := [] }.txDrain n)
    | .clock t :: rest => .quiet { s with turns := rest, events := [], timeNow := t }
    | .engine :: rest =>
      let s := { s with turns := rest, events := [] }
      if s.checking then engineTurn s else .quiet s
    | .await :: rest =>
      if s.checking then engineTurn { s with events := [] } else .quiet { s with turns := rest, events := [] }

/-! ### Placing a table word (assumption logs 2 and 3) -/

/-- A host call stands first among the turns, and no CHECK is in progress. -/
def placeCall (c : HostCall) (s : State) : State :=
  { s with turns := .host c :: s.turns, checking := false }

/-- A frame stands at its last tail byte: a CHECK is in progress and takes it with the next engine turn, the payload is in `PBUF`,
and the profile and the pending request are those under which the table's row is selected. -/
def placeFrame (x : DecodeCtx) (k : FrameKind) (p : List Byte) (s : State) : State :=
  let t := tailMagic k
  { s with
    inst := { s.inst with profile := x.profile }
    pendValid := x.pend.isSome
    pendCmd := x.pend.getD s.pendCmd
    checking := true
    turns := .engine :: s.turns
    rx := t.b3 :: s.rx
    asm := { s.asm with
      state := .readTail, kind := k, wn := 0, ln := 0
      len := BitVec.ofNat 16 p.length, plen := BitVec.ofNat 16 p.length
      twin := t, tn := 3, pbuf := Memory.ofList p } }

/-- The instruction of a table word (`decodeTableWord`) where the next step fetches it. A word that decodes to nothing changes
nothing. -/
def placeTableWord (s : State) (nbits w : Nat) : State :=
  if nbits = 48 then
    match selectorOf w with
    | some (k, b0, b1) => placeFrame (tableCtx k b0 b1) k (tablePayload b0 b1) s
    | none => s
  else if nbits = 8 ∨ nbits = 7 then
    if w < 128 then placeCall (tableCall w) s else s
  else if nbits = 0 then { s with turns := .transport [] :: s.turns }
  else s

end Sys2Proof.Machine
end

