-- ==== Sys2Proof/Machine/Step.lean ====
section
/-! DEFINITION. One step of the machine (00_scope.md R8, R9): one turn. An atomic host operation, a transport step or one byte step of
a running CHECK together with the classification and decode that the byte completes. -/

namespace Sys2Proof.Machine

open Sys2Proof

/-- One step: what the next turn fetches is run. -/
def step (s : State) : Host.Outcome State Fault Refusal :=
  match fetch s with
  | .quiet t => .next t
  | .instr i t => exec i t
  | .fault f => .fault f
  | .refuse r => .refused r

/-- The instruction of a table word, stored where the next step fetches its instruction (assumption log 3). -/
def State.withFetchWord (s : State) (nbits w : Nat) : State := placeTableWord s nbits w

end Sys2Proof.Machine
end

