-- ==== Sys2Proof/Machine/Driver.lean ====
section
/-! DEFINITION. The host contract (44_host_ops.md R340 to R346): what the source's host software does with the block, composed from the
block's operations. It binds the host, not the block (00_scope.md R5); nothing in the block reads it. What the environment
does during each CHECK is an argument (`Poll`), so a claim holds for every environment (assumption log 11). -/

namespace Sys2Proof.Machine

open Sys2Proof

/-- What one turn can still cost in steps: a turn, and the bytes it feeds. -/
def turnWork : Turn → Nat
  | .transport bs => 2 + bs.length
  | _ => 2

/-- A bound on the steps until the turns are taken and no CHECK runs (44_host_ops.md R304). -/
def State.work (s : State) : Nat :=
  (s.turns.map turnWork).sum + s.rx.length + (if s.checking then 1 else 0)

/-- `n` steps, stopping at the first fault or refusal (`Host.Core.run` of the core, at this machine's own types). -/
def steps : Nat → State → Host.Outcome State Fault Refusal
  | 0, s => .next s
  | n + 1, s =>
    match step s with
    | .next t => steps n t
    | .fault f => .fault f
    | .refused r => .refused r

/-- Runs the machine until its turns are taken and no operation runs. -/
def settle (s : State) : Host.Outcome State Fault Refusal := steps s.work s

/-- One host operation, the environment's turns while it runs, and the wait for its end. -/
def callWith (i : Instr) (env : List Turn) (s : State) : Host.Outcome State Fault Refusal :=
  match encode i with
  | .call c => settle { s with turns := .host c :: env ++ [.await] }
  | .frame _ => .next s
  | .transport bs => settle { s with turns := [.transport bs] }

/-- What happens around one CHECK of a wait: the turns of the transport, the clock and the engine during it, and the
milliseconds since the wait began by the host's own time source when it returns. -/
structure Poll where
  env : List Turn
  elapsed : Nat
deriving DecidableEq, Repr

/-- How a request, a composite or `begin()` ends; `waiting` when the polls given do not end it. -/
inductive HostResult where
  | succeeded (s : State)
  | failed (s : State)
  | waiting (s : State)
  | stopped
deriving DecidableEq, Repr

/-- The wait for an Ack (R340): CHECK until it answers ACK (success is status 0) or the bound has elapsed, which issues TIMEOUT.
DATA and FAIL do not end the wait. -/
def waitAck (tWait : Nat) : List Poll → State → HostResult
  | [], s => .waiting s
  | q :: qs, s =>
    match callWith .check q.env s with
    | .next t =>
      match t.result with
      | some (.check (.ack _ status)) => if status = 0 then .succeeded t else .failed t
      | _ =>
        if tWait ≤ q.elapsed then
          match callWith .timeout [] t with
          | .next u => .failed u
          | .fault _ => .stopped
          | .refused _ => .stopped
        else waitAck tWait qs t
    | .fault _ => .stopped
    | .refused _ => .stopped

/-- Request and wait (R340). -/
def request (h : HostParams) (i : Instr) (qs : List Poll) (s : State) : HostResult :=
  match callWith i [] s with
  | .next t => if t.result = some (.tx .sent) then waitAck h.tWait qs t else .failed t
  | .fault _ => .stopped
  | .refused _ => .stopped

/-- Phase 2 of a composite (R341, R342): the commands in order, each built from the state it is sent in; the first failure ends
the phase. `polls` gives each request's environment in turn. -/
def requests (h : HostParams) : List (State → Instr) → List (List Poll) → State → HostResult
  | [], _, s => .succeeded s
  | c :: cs, polls, s =>
    match request h (c s) (polls.headD []) s with
    | .succeeded t => requests h cs polls.tail t
    | r => r

/-- Phase 3 (R343, R344): the forced exit after phases 1 and 2 ended with `ok`; overall success needs every phase. -/
def forcedExit (h : HostParams) (ok : Bool) (qs : List Poll) (s : State) : HostResult :=
  match request h .txExitCfg qs s with
  | .succeeded t => if ok then .succeeded t else .failed t
  | r => r

/-- A composite operation (R341 to R344): enter config mode unless in it already, the commands, the forced exit. `enter` and `exit`
are the environments of phases 1 and 3. -/
def composite (h : HostParams) (cmds : List (State → Instr)) (enter : List Poll) (polls : List (List Poll))
    (exit : List Poll) (s : State) : HostResult :=
  match (if s.inCfg then .succeeded s else request h .txEnterCfg enter s) with
  | .succeeded t =>
    match requests h cmds polls t with
    | .succeeded u => forcedExit h true exit u
    | .failed u => forcedExit h false exit u
    | r => r
  | .failed t => forcedExit h false exit t
  | r => r

/-- The public operations (R345). -/
inductive PublicOp where
  | enterConfigMode
  | exitConfigMode
  | enableEnhanced
  | disableEnhanced
  | requestMac
  | requestFirmware
  | requestResolution
  | requestParameters
  | setResolution (fine : Bool)
  /-- one gate, or all gates with `none` (30_encoding.md R125) -/
  | setGateParameters (gate : Option Word32) (mov stat : Word32)
  | setMaxGate (mm ms t : Word32)
  | setNoOneWindow (t : Word32)
  | setMaxMovingGate (mm : Word32)
  | setMaxStationaryGate (ms : Word32)
  | factoryReset
  | reboot
  | bluetooth (on : Bool)
deriving DecidableEq, Repr

/-- The configuration is read first when it is unknown (R345). -/
def withParams (s : State) (cmd : State → Instr) : List (State → Instr) :=
  if s.cfg.paramValid then [cmd] else [fun _ => .txReadParams, cmd]

/-- R345: a single request (`inl`) or the commands of a composite (`inr`). -/
def PublicOp.commands (s : State) : PublicOp → Instr ⊕ List (State → Instr)
  | .enterConfigMode => .inl .txEnterCfg
  | .exitConfigMode => .inl .txExitCfg
  | .enableEnhanced => .inr [fun _ => .txEnhOn]
  | .disableEnhanced => .inr [fun _ => .txEnhOff]
  | .requestMac => .inl .txReadMac
  | .requestFirmware => .inl .txReadFw
  | .requestResolution => .inl .txReadRes
  | .requestParameters => .inl .txReadParams
  | .setResolution fine => .inr [fun _ => .txSetRes (if fine then 1 else 0)]
  | .setGateParameters g m v => .inr [fun _ => .txSetGateThr (g.getD 0x0000FFFF) m v]
  | .setMaxGate mm ms t => .inr [fun _ => .txSetMaxgateNoone mm ms t]
  | .setNoOneWindow t => .inr (withParams s fun u =>
      .txSetMaxgateNoone (u.cfg.maxMov.setWidth 32) (u.cfg.maxStat.setWidth 32) t)
  | .setMaxMovingGate mm => .inr (withParams s fun u =>
      .txSetMaxgateNoone mm (u.cfg.maxStat.setWidth 32) (u.cfg.noone.setWidth 32))
  | .setMaxStationaryGate ms => .inr (withParams s fun u =>
      .txSetMaxgateNoone (u.cfg.maxMov.setWidth 32) ms (u.cfg.noone.setWidth 32))
  | .factoryReset => .inr [fun _ => .txFactoryReset]
  | .reboot => .inr [fun _ => .txReboot]
  | .bluetooth on => .inr [fun _ => if on then .txBtOn else .txBtOff]

/-- A public operation (R340, R341, R345). -/
def PublicOp.run (h : HostParams) (op : PublicOp) (enter : List Poll) (polls : List (List Poll))
    (exit : List Poll) (s : State) : HostResult :=
  match op.commands s with
  | .inl i => request h i (polls.headD []) s
  | .inr cmds => composite h cmds enter polls exit s

/-- The polling part of `begin()` (R346, 70_reset_and_hazards.md R393): CHECK until a result other than FAIL or until the bound. -/
def pollFirst (tBegin : Nat) : List Poll → State → HostResult
  | [], s => .waiting s
  | q :: qs, s =>
    match callWith .check q.env s with
    | .next t =>
      if t.result = some (.check .fail) then
        (if tBegin ≤ q.elapsed then .failed t else pollFirst tBegin qs t)
      else .succeeded t
    | .fault _ => .stopped
    | .refused _ => .stopped

/-- `begin()` (R346): RESET, then the polls. `end()` issues no operation (R394). A failure is TransportUnavailableError
(60_exceptions.md R361), for which the block raises no event. -/
def beginDriver (h : HostParams) (qs : List Poll) (s : State) : HostResult :=
  match callWith .reset [] s with
  | .next t => pollFirst h.tBegin qs t
  | .fault _ => .stopped
  | .refused _ => .stopped

end Sys2Proof.Machine
end

