-- ==== Sys2Proof/Safety.lean ====
section
/-! DEFINITION. What a reachable state satisfies (10_state.md R38, R40, R54, R59; 20_memory.md R83, R84) and what a safe run is. -/

namespace Sys2Proof.Machine

open Sys2Proof

/-- The assembler invariants of 10_state.md R38, and what R83 and R84 need of `PBUF`. -/
structure Asm.Inv (c : Instance) (a : Asm) : Prop where
  /-- `WN ≤ 4` -/
  wn_le : a.wn ≤ 4
  /-- `LN ≤ 1` outside a byte step -/
  ln_le : a.ln ≤ 1
  /-- `TN ≤ 3` outside a byte step -/
  tn_le : a.tn ≤ 3
  /-- `L ≤ LMAX` in READ_PAYLOAD and READ_TAIL -/
  len_le : a.state = .readPayload ∨ a.state = .readTail → a.len.toNat ≤ c.lmax
  /-- READ_PAYLOAD implies `PLEN < L` -/
  plen_lt : a.state = .readPayload → a.plen.toNat < a.len.toNat
  /-- READ_TAIL implies `PLEN = L` -/
  plen_eq : a.state = .readTail → a.plen = a.len
  /-- a full window in SEEK_HEADER is no header magic: it was tested when it filled (40_assembler.md R162) -/
  no_header : a.state = .seekHeader → a.wn = 4 → headerOf a.win = none
  /-- `PBUF` is in canonical form -/
  pbuf_wf : a.pbuf.wf
  /-- every index of `PBUF` is below `CAP` -/
  pbuf_below : a.pbuf.below c.cap
  /-- the payload collected so far has been written -/
  pbuf_written : a.state = .readPayload ∨ a.state = .readTail →
    ∀ i < a.plen.toNat, (a.pbuf.read i).isSome

/-- The count of a GateArray never exceeds 9 (10_state.md R40). -/
def Snapshot.Inv (v : Snapshot) : Prop := v.movSigs.length ≤ gmax ∧ v.statSigs.length ≤ gmax

/-- The configuration's invariants. -/
structure DeviceConfig.Inv (d : DeviceConfig) : Prop where
  /-- `N ≤ 9` (R40) -/
  thr_le : d.movThr.length ≤ gmax ∧ d.statThr.length ≤ gmax
  /-- `RANGE = max(MAX_MOV, MAX_STAT)` (R54) -/
  range_eq : d.range.toNat = max d.maxMov.toNat d.maxStat.toNat
  /-- while a VALID bit is 0, the fields it guards hold 0 (R59) -/
  proto_zero : d.protoValid = false → d.protoVer = 0
  fw_zero : d.fwValid = false → d.fwType = 0 ∧ d.fwMajor = 0 ∧ d.fwMinor = 0
  mac_zero : d.macValid = false → d.mac = #v[0, 0, 0, 0, 0, 0]
  param_zero : d.paramValid = false →
    d.maxMov = 0 ∧ d.maxStat = 0 ∧ d.range = 0 ∧ d.noone = 0 ∧ d.movThr = [] ∧ d.statThr = []

/-- The machine's invariant. -/
structure State.Inv (s : State) : Prop where
  /-- the instance keeps R7 -/
  inst_wf : s.inst.wf = true
  asm : s.asm.Inv s.inst
  snap : s.snap.Inv
  cfg : s.cfg.Inv
  /-- while an ACK result stands on the port, no request is pending (43_ack_decoder.md R260, R262) -/
  ack_resolved : ∀ aid status, s.result = some (.check (.ack aid status)) → s.pendValid = false

/-- A step is safe when it does not end in a fault. -/
def State.Safe (s : State) : Prop := ∀ f, step s ≠ .fault f

end Sys2Proof.Machine
end

