-- ==== Sys2Proof/Certificates/Slice0/Obligations.lean ====
section
/-! DEFINITION. The statements for the provers. Each docstring names the rule of the spec it formalises, or the sections it rests on. -/

namespace Sys2Proof.Machine

open Sys2Proof

/-! ### Words the statements share -/

/-- A running CHECK goes on by itself: no turn is left, or the host waits for its end. -/
def CheckGoesOn (s : State) : Prop := s.turns = [] ∨ ∃ us, s.turns = .await :: us

/-- The next turn is a round of the running CHECK, and `ts` are the turns after it: an engine turn is taken, and where the CHECK goes
on by itself the turns stay. -/
def EngineNext (s : State) (ts : List Turn) : Prop :=
  s.inst.wf = true ∧ s.checking = true ∧ (s.turns = .engine :: ts ∨ CheckGoesOn s ∧ ts = s.turns)

/-- The round of the running CHECK that takes byte `b` and leaves `rest` in the receive FIFO. -/
def RoundTakes (s : State) (b : Byte) (rest : List Byte) (ts : List Turn) : Prop :=
  EngineNext s ts ∧ s.rx = b :: rest

/-- The state after a round that takes a byte and ends no frame: the CHECK goes on with this assembler and these events. -/
def afterRound (s : State) (rest : List Byte) (ts : List Turn) (a : Asm) (es : List Event) : State :=
  { s with rx := rest, turns := ts, asm := a, events := es }

/-- CHECK ends with FAIL and this event; nothing else is written. -/
def failedFrame (s : State) (e : Event) : State :=
  { s with checking := false, result := some (.check .fail), events := s.events ++ [e] }

/-- CHECK ends with DATA and this snapshot; nothing else is written. -/
def committedFrame (s : State) (v : Snapshot) : State :=
  { s with checking := false, result := some (.check .data), snap := v }

/-- CHECK ends with ACK and the pending request is resolved; nothing else is written. -/
def ackedFrame (s : State) (aid status : Word16) : State :=
  { s with checking := false, result := some (.check (.ack aid status)), pendValid := false }

/-- TX answers SENT: these bytes are appended and this command is pending; nothing else is written. -/
def sentFrame (s : State) (c : Cmd) (bytes : List Byte) : State :=
  { s with tx := s.tx ++ bytes, pendCmd := c, pendValid := true, result := some (.tx .sent) }

/-- Data frames are blocked in this state (41_classifier.md R203). -/
def Blocked (s : State) : Prop := s.inCfg = true ∧ s.inst.dataInCfg = .block

/-- No four consecutive bytes equal a header magic (40_assembler.md R176). -/
def NoHeaderIn (l : List Byte) : Prop :=
  ∀ (pre post : List Byte) (q : Quad), l = pre ++ q.toList ++ post → headerOf q = none

/-- The host's call of CHECK: host_op 1 (30_encoding.md R145). -/
def checkCall : HostCall := { w := 0b0010000 }

/-- `bs` is in the receive FIFO and the host calls CHECK and waits for its end; then `ts`. -/
def checkOver (s : State) (bs : List Byte) (ts : List Turn) : State :=
  { s with rx := bs, turns := .host checkCall :: .await :: ts }

/-- The snapshot of the payload `p` with its basic fields from offset `o` on (42_data_decoder.md R230). -/
def payloadSnapshot (o : Nat) (p : List Byte) (movSigs statSigs : GateArray) (now : Word32) : Snapshot :=
  { movPres := (byteAt p o).getLsbD 0, statPres := (byteAt p o).getLsbD 1
    movDist := le16 p (o + 1), movSig := byteAt p (o + 3), statDist := le16 p (o + 4), statSig := byteAt p (o + 6)
    detDist := le16 p (o + 7), ts := now, movSigs := movSigs, statSigs := statSigs }

/-- `v` is the snapshot that the Data payload `p` commits in the state `s` (42_data_decoder.md R231, R232, R234, R235): every field
comes from the payload and the time input. -/
def Commits (s : State) (p : List Byte) (v : Snapshot) : Prop :=
  let ng := if s.cfg.paramValid = true then min (s.cfg.range.toNat + 1) 9 else 0
  let mm := (byteAt p 11).toNat
  let ms := (byteAt p 12).toNat
  (selectRow s.ctx .data p = .dataBasic p ∧ v = payloadSnapshot 1 p [] [] s.timeNow) ∨
  (selectRow s.ctx .data p = .dataEnhanced p ∧
    v = payloadSnapshot 1 p ((p.drop 10).take ng) ((p.drop (10 + ng)).take ng) s.timeNow) ∨
  (selectRow s.ctx .data p = .dataBasicVendor p ∧ v = payloadSnapshot 2 p [] [] s.timeNow) ∨
  (selectRow s.ctx .data p = .dataEnhancedVendor p ∧
    v = payloadSnapshot 2 p ((p.drop 13).take (min (mm + 1) 9)) ((p.drop (14 + mm)).take (min (ms + 1) 9)) s.timeNow)

/-- The commands that require config mode (30_encoding.md R120, R121). -/
def gatedCommands : List Cmd :=
  [.enhOn, .enhOff, .setRes, .setGateThr, .setMaxgateNoone, .factoryReset, .reboot, .btOn, .btOff]

/-- RD answers this value and has no side effect. -/
def RdGives (s : State) (i g v : Word32) : Prop := exec (.rd i g) s = .next { s with result := some (.value v) }

/-- An array element as RD shows it: 0 at or beyond the end. -/
def elementOrZero (v : List Byte) (g : Word32) : Word32 :=
  if h : g.toNat < v.length then (v[g.toNat]).setWidth 32 else 0

/-- The indexes of the register map (10_state.md R60). -/
def rdIndexes : List Nat :=
  [0x10, 0x11, 0x12, 0x13, 0x14, 0x15, 0x16, 0x17, 0x18, 0x19, 0x1A, 0x1B,
    0x20, 0x21, 0x22, 0x23, 0x24, 0x25, 0x26, 0x27, 0x28, 0x29, 0x2A, 0x2B, 0x2C, 0x2D, 0x2E, 0x2F, 0x30, 0x31,
    0x38, 0x39, 0x3A, 0x3B, 0x3C]

/-- Two states that differ at most on the output ports `host_result` and `event`. -/
def SameButPorts (s t : State) : Prop := { s with result := t.result, events := t.events } = t

/-- Two outcomes whose next states are related, or that stop alike. -/
def OutcomesRelated (R : State → State → Prop) :
    Host.Outcome State Fault Refusal → Host.Outcome State Fault Refusal → Prop
  | .next s, .next t => R s t
  | .fault f, .fault g => f = g
  | .refused q, .refused r => q = r
  | _, _ => False

/-- A turn that is not the host's. -/
def Turn.environment : Turn → Bool
  | .host _ => false
  | _ => true

end Sys2Proof.Machine

open Sys2Proof Sys2Proof.Machine

/-! ### Encoding -/

/-- Decoding the encoding of a well-formed instruction gives it back, every operand at every value (R100, R103, R145). -/
def Obligations.DecodeOfEncodeIsIdentity : Prop :=
  ∀ (x : DecodeCtx) (i : Instr), i.wf x = true → decode x (encode i) = .ok i

/-- R145 and R300: `host_op` is read from W[6:4], `c` from W[3:0] and for TX alone; c = 15 is reserved (R326). -/
def Obligations.HostWordReadsItsFields : Prop :=
  ∀ (c : BitVec 4) (a b d : Word32),
    decodeCall { w := (0 : BitVec 3) ++ c, a := a, b := b, c := d } = .reset ∧
    decodeCall { w := (1 : BitVec 3) ++ c, a := a, b := b, c := d } = .check ∧
    (∀ cmd : Cmd, cmd.code = c → decodeCall { w := (2 : BitVec 3) ++ c, a := a, b := b, c := d } = txInstr cmd a b d) ∧
    (c = 15 → decodeCall { w := (2 : BitVec 3) ++ c, a := a, b := b, c := d } = .txReserved15) ∧
    decodeCall { w := (3 : BitVec 3) ++ c, a := a, b := b, c := d } = .timeout ∧
    decodeCall { w := (4 : BitVec 3) ++ c, a := a, b := b, c := d } = .rd a b ∧
    decodeCall { w := (5 : BitVec 3) ++ c, a := a, b := b, c := d } = .reservedOp5 ∧
    decodeCall { w := (6 : BitVec 3) ++ c, a := a, b := b, c := d } = .reservedOp6 ∧
    decodeCall { w := (7 : BitVec 3) ++ c, a := a, b := b, c := d } = .reservedOp7

/-- Words written out from 95_test_vectors.md (V-W1, V-W2, K-12, V-1, H rows) decode to what they stand for. -/
def Obligations.SpecWordsDecode : Prop :=
  let doc : DecodeCtx := { profile := .doc, subBasic := 0x02, subEnh := 0x01, lmax := 64, pend := none }
  decode doc (.frame [0xF4, 0xF3, 0xF2, 0xF1, 0x0A, 0x00, 0x02, 0x01, 0x96, 0x00, 0x50, 0x00, 0x00, 0x00, 0x00, 0x00,
      0xF8, 0xF7, 0xF6, 0xF5])
    = .ok (.dataBasic [0x02, 0x01, 0x96, 0x00, 0x50, 0x00, 0x00, 0x00, 0x00, 0x00]) ∧
  decode { doc with pend := some .enterCfg }
      (.frame [0xFD, 0xFC, 0xFB, 0xFA, 0x08, 0x00, 0xFF, 0x00, 0x00, 0x00, 0x01, 0x00, 0x40, 0x00, 0x04, 0x03, 0x02, 0x01])
    = .ok (.ackEnterCfg [0xFF, 0x00, 0x00, 0x00, 0x01, 0x00, 0x40, 0x00]) ∧
  decode doc (.frame [0xFD, 0xFC, 0xFB, 0xFA, 0x04, 0x00, 0xFE, 0x00, 0x00, 0x00, 0x04, 0x03, 0x02, 0x01])
    = .ok (.ackUnsolicited [0xFE, 0x00, 0x00, 0x00]) ∧
  decode { doc with profile := .vendor }
      (.frame [0xF4, 0xF3, 0xF2, 0xF1, 0x0D, 0x00, 0x02, 0xAA, 0x02, 0x00, 0x00, 0x00, 0x3B, 0x00, 0x3C, 0x00, 0x00,
        0x55, 0x00, 0xF8, 0xF7, 0xF6, 0xF5])
    = .ok (.dataBasicVendor [0x02, 0xAA, 0x02, 0x00, 0x00, 0x00, 0x3B, 0x00, 0x3C, 0x00, 0x00, 0x55, 0x00]) ∧
  decode doc (.call { w := 0b0100111#7, a := 1 }) = .ok (.txSetRes 1) ∧
  decode doc (.call { w := 0b1000000#7, a := 0x12 }) = .ok (.rd 0x12 0) ∧
  decode doc (.call { w := 0b0110000#7 }) = .ok .timeout

/-- Which row a completed frame is, in every state (R202, R204, R205, R207 to R209, R211, R233). That an empty Data payload, a VENDOR
payload without a second byte and an Ack under 4 bytes are in the rows named here is the model's choice (assumption log 1). -/
def Obligations.CompletedFrameSelectsItsRow : Prop :=
  ∀ (s : State) (p : List Byte),
    (p = [] → selectRow s.ctx .data p = .dataReservedSubtype p) ∧
    (∀ b rest, p = b :: rest → b ≠ s.inst.subBasic → b ≠ s.inst.subEnh →
      selectRow s.ctx .data p = .dataReservedSubtype p) ∧
    (∀ rest, p = s.inst.subBasic :: rest → s.inst.profile = .doc → selectRow s.ctx .data p = .dataBasic p) ∧
    (∀ rest, p = s.inst.subEnh :: rest → s.inst.subEnh ≠ s.inst.subBasic → s.inst.profile = .doc →
      selectRow s.ctx .data p = .dataEnhanced p) ∧
    (∀ rest, p = s.inst.subBasic :: 0xAA :: rest → s.inst.profile = .vendor →
      selectRow s.ctx .data p = .dataBasicVendor p) ∧
    (∀ rest, p = s.inst.subEnh :: 0xAA :: rest → s.inst.subEnh ≠ s.inst.subBasic → s.inst.profile = .vendor →
      selectRow s.ctx .data p = .dataEnhancedVendor p) ∧
    (∀ b rest, p = b :: rest → b = s.inst.subBasic ∨ b = s.inst.subEnh → rest.head? ≠ some 0xAA →
      s.inst.profile = .vendor → selectRow s.ctx .data p = .dataBadMarkerVendor p) ∧
    (p.length < 4 → selectRow s.ctx .ack p = .ackUnsolicited p) ∧
    (4 ≤ p.length → s.pendValid = false → selectRow s.ctx .ack p = .ackUnsolicited p) ∧
    (4 ≤ p.length → le16 p 0 ≠ s.pendCmd.ackId s.inst.profile → selectRow s.ctx .ack p = .ackUnsolicited p) ∧
    (4 ≤ p.length → s.pendValid = true → le16 p 0 = s.pendCmd.ackId s.inst.profile →
      selectRow s.ctx .ack p = ackInstr s.pendCmd p)

/-! ### The assembler -/

/-- R161 and R162: a byte in SEEK_HEADER enters the window; a full window that is a header magic opens its family's frame and is
emptied; otherwise the state stays. -/
def Obligations.SeekShiftsAndTestsTheWindow : Prop :=
  ∀ (s : State) (b : Byte) (rest : List Byte) (ts : List Turn), RoundTakes s b rest ts → s.asm.state = .seekHeader →
    let w := if s.asm.wn < 4 then windowSet s.asm.win s.asm.wn b
      else (⟨s.asm.win.b1, s.asm.win.b2, s.asm.win.b3, b⟩ : Quad)
    let n := if s.asm.wn < 4 then s.asm.wn + 1 else s.asm.wn
    step s = .next (afterRound s rest ts
      (if n = 4 ∧ w = ⟨0xF4, 0xF3, 0xF2, 0xF1⟩ then
        { s.asm with win := w, kind := .data, state := .readLength, wn := 0, ln := 0 }
      else if n = 4 ∧ w = ⟨0xFD, 0xFC, 0xFB, 0xFA⟩ then
        { s.asm with win := w, kind := .ack, state := .readLength, wn := 0, ln := 0 }
      else { s.asm with win := w, wn := n }) [])

/-- R164 to R167: the low length byte is held; the high one completes `L`; `L > LMAX` emits LENGTH_OVERFLOW and resyncs with an empty
window; an accepted length starts an empty payload, in READ_TAIL at once when `L = 0`. -/
def Obligations.LengthBytesAndOverflowGuard : Prop :=
  ∀ (s : State) (b : Byte) (rest : List Byte) (ts : List Turn), RoundTakes s b rest ts → s.asm.state = .readLength →
    (s.asm.ln = 0 → step s = .next (afterRound s rest ts { s.asm with lb := b, ln := 1 } [])) ∧
    (s.asm.ln = 1 →
      let l : Word16 := s.asm.lb.setWidth 16 ||| (b.setWidth 16 <<< 8)
      (s.inst.cap - s.inst.ovh < l.toNat →
        step s = .next (afterRound s rest ts { s.asm with len := l, ln := 0, state := .seekHeader, wn := 0 }
          [.lengthOverflow])) ∧
      (l.toNat ≤ s.inst.cap - s.inst.ovh →
        step s = .next (afterRound s rest ts
          { s.asm with
            len := l, ln := 0, plen := 0, tn := 0, state := if l = 0 then .readTail else .readPayload } [])))

/-- R168 and R82: a payload byte is appended at `PLEN`, every other byte of `PBUF` reads as before, and the last one leads to
READ_TAIL. -/
def Obligations.PayloadByteIsAppended : Prop :=
  ∀ (s : State) (b : Byte) (rest : List Byte) (ts : List Turn), RoundTakes s b rest ts →
    s.asm.state = .readPayload → s.asm.plen.toNat < s.asm.len.toNat → s.asm.len.toNat ≤ s.inst.cap →
    ∃ m : Memory,
      step s = .next (afterRound s rest ts
        (if s.asm.plen + 1 = s.asm.len then
          { s.asm with pbuf := m, plen := s.asm.plen + 1, state := .readTail, tn := 0 }
        else { s.asm with pbuf := m, plen := s.asm.plen + 1 }) []) ∧
      m.read s.asm.plen.toNat = some b ∧
      ∀ i, i ≠ s.asm.plen.toNat → m.read i = s.asm.pbuf.read i

/-- R169 and R171: tail bytes are collected without comparison until the fourth; a mismatch then emits TAIL_MISMATCH and the four tail
bytes become the header window, which may itself open a frame. `TN` after the fourth byte is the model's choice
(assumption log 15) and is left out. -/
def Obligations.TailBytesCollectedAndMismatchResyncs : Prop :=
  ∀ (s : State) (b : Byte) (rest : List Byte) (ts : List Turn), RoundTakes s b rest ts → s.asm.state = .readTail →
    (s.asm.tn < 3 →
      step s = .next (afterRound s rest ts { s.asm with twin := windowSet s.asm.twin s.asm.tn b, tn := s.asm.tn + 1 } [])) ∧
    (s.asm.tn = 3 →
      let q : Quad := { s.asm.twin with b3 := b }
      q ≠ tailMagic s.asm.kind →
      ∃ n : Nat,
        step s = .next (afterRound s rest ts
          (if q = ⟨0xF4, 0xF3, 0xF2, 0xF1⟩ then
            { s.asm with twin := q, tn := n, win := q, kind := .data, state := .readLength, wn := 0, ln := 0 }
          else if q = ⟨0xFD, 0xFC, 0xFB, 0xFA⟩ then
            { s.asm with twin := q, tn := n, win := q, kind := .ack, state := .readLength, wn := 0, ln := 0 }
          else { s.asm with twin := q, tn := n, win := q, state := .seekHeader, wn := 4 }) [.tailMismatch]))

/-- R171 (derived there): the resynchronisation after a bad tail is what feeding the four tail bytes one by one from an empty window
does. -/
def Obligations.ResyncEqualsRefeedingTheTail : Prop :=
  ∀ (c : Instance) (a : Asm),
    assemble c a.twin.toList { a with state := .seekHeader, wn := 0 } = .done [] (a.resync .tailMismatch)

/-- R174, of the machine and in every idle state: the bytes `u ++ v` in one CHECK (`whole`) against `u` in a CHECK, FEED `v` and a second
CHECK (`split`). As long as a CHECK over `u` alone runs, one over `u ++ v` takes the same steps, but for the bytes and
turns still to come. If it takes all of `u` and completes no frame, `split` ends it on the empty FIFO, and from the first
byte of `v` on the two runs are in the same states: assembler, events, completed frames and all they write. If a frame
completes within `u`, it ends that CHECK in both runs, and with a second CHECK in `whole` the same holds. -/
def Obligations.ChunkingInvariance : Prop :=
  ∀ (s : State) (u v : List Byte), s.inst.wf = true → s.checking = false →
    let alone := checkOver s u []
    let split := checkOver s u [.transport v, .host checkCall, .await]
    (∀ (n : Nat) (m : State) (ts : List Turn), n ≤ 1 + u.length → steps n alone = .next m → m.checking = true →
      steps n (checkOver s (u ++ v) ts) = .next { m with rx := m.rx ++ v, turns := .await :: ts }) ∧
    (∀ m : State, steps (1 + u.length) alone = .next m → m.checking = true →
      let whole := checkOver s (u ++ v) []
      ∀ n : Nat, steps (2 + u.length + n) whole = steps (6 + u.length + n) split) ∧
    (∀ (k : Nat) (l m : State), k ≤ u.length → steps k alone = .next l → l.checking = true → step l = .next m →
      m.checking = false →
      let whole := checkOver s (u ++ v) [.host checkCall, .await]
      steps (1 + k) whole = .next { m with rx := m.rx ++ v, turns := [.await, .host checkCall, .await] } ∧
      ∀ n : Nat, steps (3 + k + n) whole = steps (4 + k + n) split)

/-- R100, R160 to R172: from SEEK_HEADER with an empty window the assembler reads exactly the frame that the encoder lays out, and
is in SEEK_HEADER with an empty window again (R175). -/
def Obligations.AssemblerReadsEncodedFrame : Prop :=
  ∀ (c : Instance) (a : Asm) (k : FrameKind) (p : List Byte), c.wf = true → p.length ≤ c.lmax →
    a.state = .seekHeader → a.wn = 0 →
    ∃ a' : Asm, assemble c (frameBytes k p) a = .done [(k, p)] a' ∧ a'.state = .seekHeader ∧ a'.wn = 0

/-- R176: garbage that holds no header magic, also across the start of the frame, does not hide a valid Data frame; what follows is
assembled from a clean SEEK_HEADER. -/
def Obligations.ResyncPastGarbage : Prop :=
  ∀ (c : Instance) (a : Asm) (g1 g2 p : List Byte), c.wf = true → p.length ≤ c.lmax →
    a.state = .seekHeader → a.wn = 0 → NoHeaderIn (g1 ++ [0xF4, 0xF3, 0xF2]) →
    ∃ a' : Asm, a'.state = .seekHeader ∧ a'.wn = 0 ∧
      assemble c (g1 ++ frameBytes .data p ++ g2) a =
        match assemble c g2 a' with
        | .done fs b => .done ((.data, p) :: fs) b
        | .fault f => .fault f

/-! ### A step runs the decoded instruction -/

/-- A host turn in an idle machine runs the operation that its word decodes to, on the state moved past the turn. -/
def Obligations.StepRunsTheHostCall : Prop :=
  ∀ (s : State) (x : DecodeCtx) (c : HostCall) (i : Instr) (ts : List Turn), s.inst.wf = true → s.checking = false →
    s.turns = .host c :: ts → decode x (.call c) = .ok i → step s = exec i { s with turns := ts, events := [] }

/-- R170, R172: the byte that completes a frame runs, in the same step, the instruction that the whole frame decodes to, on the state
with the assembler back in SEEK_HEADER with an empty window and the rest of the FIFO untouched (R177). -/
def Obligations.StepRunsTheCompletedFrame : Prop :=
  ∀ (s : State) (b : Byte) (rest : List Byte) (ts : List Turn) (p : List Byte) (i : Instr), RoundTakes s b rest ts →
    s.asm.state = .readTail → s.asm.tn = 3 → ({ s.asm.twin with b3 := b } : Quad) = tailMagic s.asm.kind →
    s.asm.pbuf.readFirst s.asm.plen.toNat = some p →
    decode s.ctx (.frame (frameBytes s.asm.kind p)) = .ok i →
    ∃ n : Nat, step s = exec i (afterRound s rest ts
      { s.asm with twin := tailMagic s.asm.kind, tn := n, state := .seekHeader, wn := 0 } [])

/-- R330: FEED appends its bytes in order at the tail of the receive FIFO and writes no register, also while a CHECK runs. -/
def Obligations.FeedAppendsToTheReceiveFifo : Prop :=
  ∀ (s : State) (bs : List Byte),
    exec (.feed bs) s = .next { s with rx := s.rx ++ bs } ∧
    ∀ ts, s.inst.wf = true → s.turns = .transport bs :: ts →
      step s = .next { s with rx := s.rx ++ bs, turns := ts, events := [] }

/-! ### CHECK -/

/-- R302: CHECK begins a loop that has no result yet and writes nothing else, and a round that finds the FIFO empty returns FAIL, raises
no event and changes nothing. That each round of the loop is a step of its own is the model's form (assumption log 4). -/
def Obligations.CheckBeginsAndFailsOnAnEmptyFifo : Prop :=
  (∀ s : State, exec .check s = .next { s with checking := true, result := none }) ∧
  ∀ (s : State) (ts : List Turn), EngineNext s ts → s.rx = [] →
    step s = .next { s with turns := ts, events := [], checking := false, result := some (.check .fail) }

/-- R304: a CHECK with no further transport steps ends after at most one round per byte in the FIFO and one more, and what it leaves
in the FIFO is the end of what was there. -/
def Obligations.CheckEndsWithinTheFifo : Prop :=
  ∀ s : State, s.Inv → s.checking = true → CheckGoesOn s →
    ∃ (n : Nat) (t : State), n ≤ s.rx.length + 1 ∧ steps n s = .next t ∧ t.checking = false ∧ t.rx <:+ s.rx

/-- R304, R305: whatever the transport, the clock and the engine do, a machine without host turns comes to rest with its turns taken
and no CHECK running, and keeps the invariant. -/
def Obligations.MachineComesToRest : Prop :=
  ∀ s : State, s.Inv → (s.turns.all Turn.environment) = true →
    ∃ t : State, settle s = .next t ∧ t.turns = [] ∧ t.checking = false ∧ t.Inv

/-- R160 to R172, R302, R177, R408: a CHECK over a FIFO that starts with a whole frame executes exactly that frame's instruction, after
exactly the frame's bytes, and leaves every byte behind it. -/
def Obligations.CheckExecutesTheFirstFrame : Prop :=
  ∀ (s : State) (k : FrameKind) (p rest : List Byte) (i : Instr), s.inst.wf = true → s.checking = true → CheckGoesOn s →
    s.asm.state = .seekHeader → s.asm.wn = 0 → p.length ≤ s.inst.lmax → s.rx = frameBytes k p ++ rest →
    decode s.ctx (.frame (frameBytes k p)) = .ok i →
    ∃ a' : Asm, a'.state = .seekHeader ∧ a'.wn = 0 ∧
      steps (10 + p.length) s = exec i { s with rx := rest, asm := a', events := [] }

/-! ### Data frames -/

/-- R231, R236 (and R108): DATA.BASIC under DOC replaces the whole snapshot, or is discarded when too short. -/
def Obligations.DataBasicCommits : Prop :=
  ∀ (s : State) (p : List Byte), ¬ Blocked s →
    (10 ≤ p.length → exec (.dataBasic p) s = .next (committedFrame s
      { movPres := (byteAt p 1).getLsbD 0, statPres := (byteAt p 1).getLsbD 1
        movDist := le16 p 2, movSig := byteAt p 4, statDist := le16 p 5, statSig := byteAt p 7, detDist := le16 p 8
        ts := s.timeNow, movSigs := [], statSigs := [] })) ∧
    (p.length < 10 → exec (.dataBasic p) s = .next (failedFrame s .shortPayload))

/-- R232, R236: DATA.ENHANCED under DOC sizes both arrays by `NG`, from `RANGE` and `PARAM_VALID` at completion. -/
def Obligations.DataEnhancedCommits : Prop :=
  ∀ (s : State) (p : List Byte), ¬ Blocked s →
    let ng := if s.cfg.paramValid = true then min (s.cfg.range.toNat + 1) 9 else 0
    (10 + 2 * ng ≤ p.length → exec (.dataEnhanced p) s = .next (committedFrame s
      { movPres := (byteAt p 1).getLsbD 0, statPres := (byteAt p 1).getLsbD 1
        movDist := le16 p 2, movSig := byteAt p 4, statDist := le16 p 5, statSig := byteAt p 7, detDist := le16 p 8
        ts := s.timeNow, movSigs := (p.drop 10).take ng, statSigs := (p.drop (10 + ng)).take ng })) ∧
    (p.length < 10 + 2 * ng → exec (.dataEnhanced p) s = .next (failedFrame s .shortPayload))

/-- R234, R236: DATA.BASIC under VENDOR with its head marker present. -/
def Obligations.DataBasicVendorCommits : Prop :=
  ∀ (s : State) (p : List Byte), ¬ Blocked s → 2 ≤ p.length → byteAt p 1 = 0xAA →
    (11 ≤ p.length → exec (.dataBasicVendor p) s = .next (committedFrame s
      { movPres := (byteAt p 2).getLsbD 0, statPres := (byteAt p 2).getLsbD 1
        movDist := le16 p 3, movSig := byteAt p 5, statDist := le16 p 6, statSig := byteAt p 8, detDist := le16 p 9
        ts := s.timeNow, movSigs := [], statSigs := [] })) ∧
    (p.length < 11 → exec (.dataBasicVendor p) s = .next (failedFrame s .shortPayload))

/-- R235, R236: DATA.ENHANCED under VENDOR sizes its arrays by its own bytes 11 and 12 and stores at most nine entries of each. -/
def Obligations.DataEnhancedVendorCommits : Prop :=
  ∀ (s : State) (p : List Byte), ¬ Blocked s → 2 ≤ p.length → byteAt p 1 = 0xAA →
    let mm := (byteAt p 11).toNat
    let ms := (byteAt p 12).toNat
    (p.length < 13 → exec (.dataEnhancedVendor p) s = .next (failedFrame s .shortPayload)) ∧
    (13 ≤ p.length → p.length < 15 + mm + ms →
      exec (.dataEnhancedVendor p) s = .next (failedFrame s .shortPayload)) ∧
    (15 + mm + ms ≤ p.length → exec (.dataEnhancedVendor p) s = .next (committedFrame s
      { movPres := (byteAt p 2).getLsbD 0, statPres := (byteAt p 2).getLsbD 1
        movDist := le16 p 3, movSig := byteAt p 5, statDist := le16 p 6, statSig := byteAt p 8, detDist := le16 p 9
        ts := s.timeNow, movSigs := (p.drop 13).take (min (mm + 1) 9)
        statSigs := (p.drop (14 + mm)).take (min (ms + 1) 9) }))

/-- R233: under VENDOR, a payload without a second byte is short and one whose second byte is not 0xAA has a bad marker; the frame is
discarded. -/
def Obligations.VendorHeadMarkerIsChecked : Prop :=
  ∀ (s : State) (p : List Byte), ¬ Blocked s →
    ∀ i ∈ [Instr.dataBasicVendor p, .dataEnhancedVendor p, .dataBadMarkerVendor p],
      (p.length < 2 → exec i s = .next (failedFrame s .shortPayload)) ∧
      (2 ≤ p.length → byteAt p 1 ≠ 0xAA → exec i s = .next (failedFrame s .badMarker))

/-- R201, R202 (order of R211): a completed Data frame with an empty payload is short and one with an unknown sub-type is rejected, in
any mode; so says the reserved row itself. -/
def Obligations.UnknownSubtypeIsRejected : Prop :=
  ∀ (s : State) (p : List Byte),
    (p = [] → exec (.dataReservedSubtype p) s = .next (failedFrame s .shortPayload)) ∧
    (p ≠ [] → exec (.dataReservedSubtype p) s = .next (failedFrame s .unknownSubtype)) ∧
    (p = [] → exec (selectRow s.ctx .data p) s = .next (failedFrame s .shortPayload)) ∧
    (∀ b rest, p = b :: rest → b ≠ s.inst.subBasic → b ≠ s.inst.subEnh →
      exec (selectRow s.ctx .data p) s = .next (failedFrame s .unknownSubtype))

/-- R203: with `DATA_IN_CFG = BLOCK` and `IN_CFG = 1` every Data row of a known sub-type is ignored with DATA_BLOCKED. -/
def Obligations.DataBlockedInConfigMode : Prop :=
  ∀ (s : State) (p : List Byte), s.inCfg = true → s.inst.dataInCfg = .block →
    ∀ i ∈ [Instr.dataBasic p, .dataEnhanced p, .dataBasicVendor p, .dataEnhancedVendor p, .dataBadMarkerVendor p],
      exec i s = .next (failedFrame s .dataBlocked)

/-- The frame of the Data rows: only the snapshot, the end of the CHECK and the ports change, and no byte of `PBUF`; a FAIL result
leaves the snapshot too (R210). -/
def Obligations.DataRowsChangeOnlyTheSnapshot : Prop :=
  ∀ (s t : State) (p : List Byte),
    ∀ i ∈ [Instr.dataBasic p, .dataEnhanced p, .dataBasicVendor p, .dataEnhancedVendor p, .dataBadMarkerVendor p,
        .dataReservedSubtype p],
      exec i s = .next t →
        t = { s with snap := t.snap, checking := false, result := t.result, events := t.events } ∧
        (∀ a, t.asm.pbuf.read a = s.asm.pbuf.read a) ∧
        (t.result = some (.check .data) ∧ t.events = s.events ∧ t.snap.ts = s.timeNow ∨
         t.result = some (.check .fail) ∧ t.snap = s.snap ∧ t.events.length = s.events.length + 1)

/-- R47: the snapshot is replaced whole by the Data frame that a byte step of a CHECK completes, every field from its payload and the
time input (R236), is emptied by RESET, and is written by nothing else. -/
def Obligations.SnapshotWrittenOnlyByCommitAndReset : Prop :=
  ∀ s t : State, step s = .next t →
    t.snap = s.snap ∨
    (s.checking = true ∧ t.checking = false ∧ t.result = some (.check .data) ∧ s.asm.state = .readTail ∧
      s.asm.kind = .data ∧ ∃ p, s.asm.pbuf.readFirst s.asm.plen.toNat = some p ∧ Commits s p t.snap) ∨
    (∃ c ts, s.turns = .host c :: ts ∧ decodeCall c = .reset ∧ t.snap = Snapshot.empty)

/-- R239, R57: no Data row reads `ENHANCED`. -/
def Obligations.DataDecoderIgnoresEnhanced : Prop :=
  ∀ (s : State) (p : List Byte) (e : Bool),
    ∀ i ∈ [Instr.dataBasic p, .dataEnhanced p, .dataBasicVendor p, .dataEnhancedVendor p, .dataBadMarkerVendor p,
        .dataReservedSubtype p],
      OutcomesRelated (fun t u => { t with enhanced := e } = u) (exec i s) (exec i { s with enhanced := e })

/-! ### Ack frames -/

/-- R260: a nonzero status word is a rejection, for every command; it ends the request, reports the status and writes nothing else. -/
def Obligations.RejectedAckEndsTheRequest : Prop :=
  ∀ (s : State) (c : Cmd) (p : List Byte), le16 p 2 ≠ 0 →
    exec (ackInstr c p) s = .next (ackedFrame s (le16 p 0) (le16 p 2))

/-- R261, R136: a success shorter than `NEED(c)` is discarded and the request stays pending. -/
def Obligations.ShortAckKeepsTheRequest : Prop :=
  ∀ (s : State) (p : List Byte), le16 p 2 = 0 →
    (p.length < 8 → exec (.ackEnterCfg p) s = .next (failedFrame s .shortPayload)) ∧
    (p.length < 10 → exec (.ackReadMac p) s = .next (failedFrame s .shortPayload)) ∧
    (p.length < 12 → exec (.ackReadFw p) s = .next (failedFrame s .shortPayload)) ∧
    (p.length < 6 → exec (.ackReadRes p) s = .next (failedFrame s .shortPayload)) ∧
    (p.length < 28 → exec (.ackReadParams p) s = .next (failedFrame s .shortPayload)) ∧
    (p.length < 4 → ∀ c ∈ [Cmd.exitCfg, .enhOn, .enhOff, .setRes, .setGateThr, .setMaxgateNoone, .factoryReset, .reboot,
        .btOn, .btOff], exec (ackInstr c p) s = .next (failedFrame s .shortPayload))

/-- R263 to R266, R262: the Acks of the mode commands set and clear `IN_CFG` and `ENHANCED`; ENTER_CFG also brings the protocol
version. -/
def Obligations.ModeAcksWriteTheModeFlags : Prop :=
  ∀ (s : State) (p : List Byte), le16 p 2 = 0 →
    (8 ≤ p.length → exec (.ackEnterCfg p) s = .next (ackedFrame
      { s with inCfg := true, cfg := { s.cfg with protoVer := le16 p 4, protoValid := true } } (le16 p 0) 0)) ∧
    (4 ≤ p.length → exec (.ackExitCfg p) s = .next (ackedFrame { s with inCfg := false } (le16 p 0) 0)) ∧
    (4 ≤ p.length → exec (.ackEnhOn p) s = .next (ackedFrame { s with enhanced := true } (le16 p 0) 0)) ∧
    (4 ≤ p.length → exec (.ackEnhOff p) s = .next (ackedFrame { s with enhanced := false } (le16 p 0) 0))

/-- R267 to R269, R262: the Acks of READ_MAC, READ_FW and READ_RES write their registers. -/
def Obligations.ReadAcksWriteTheirRegisters : Prop :=
  ∀ (s : State) (p : List Byte), le16 p 2 = 0 →
    (10 ≤ p.length → exec (.ackReadMac p) s = .next (ackedFrame
      { s with cfg := { s.cfg with
          mac := #v[byteAt p 4, byteAt p 5, byteAt p 6, byteAt p 7, byteAt p 8, byteAt p 9], macValid := true } }
      (le16 p 0) 0)) ∧
    (12 ≤ p.length → exec (.ackReadFw p) s = .next (ackedFrame
      { s with cfg := { s.cfg with
          fwType := le16 p 4, fwMajor := le16 p 6, fwMinor := le32 p 8, fwValid := true } } (le16 p 0) 0)) ∧
    (6 ≤ p.length → exec (.ackReadRes p) s = .next (ackedFrame
      { s with cfg := { s.cfg with
          res := if le16 p 4 = 0 then .coarse75 else if le16 p 4 = 1 then .fine20 else .unknown } } (le16 p 0) 0))

/-- R271, R262: the READ_PARAMS Ack writes the whole parameter group. -/
def Obligations.ReadParamsAckWritesTheGroup : Prop :=
  ∀ (s : State) (p : List Byte), le16 p 2 = 0 → 28 ≤ p.length →
    let n := min ((byteAt p 5).toNat + 1) 9
    ∃ r : Byte, r.toNat = max (byteAt p 6).toNat (byteAt p 7).toNat ∧
      exec (.ackReadParams p) s = .next (ackedFrame
        { s with cfg := { s.cfg with
            maxMov := byteAt p 6, maxStat := byteAt p 7, range := r
            movThr := (p.drop 8).take n, statThr := (p.drop 17).take n, noone := le16 p 26, paramValid := true } }
        (le16 p 0) 0)

/-- R270, R272 to R277, R262: the Acks of the set commands, FACTORY_RESET, REBOOT and Bluetooth write no register but the request's. -/
def Obligations.SetAcksWriteNoRegister : Prop :=
  ∀ (s : State) (p : List Byte), le16 p 2 = 0 → 4 ≤ p.length →
    ∀ i ∈ [Instr.ackSetRes p, .ackSetGateThr p, .ackSetMaxgateNoone p, .ackFactoryReset p, .ackReboot p, .ackBtOn p,
        .ackBtOff p],
      exec i s = .next (ackedFrame s (le16 p 0) 0)

/-- R205, R208: a completed Ack under 4 bytes is discarded; one that no pending request matches is ignored with the instance's result;
the request stays in both cases; so says the unsolicited row itself. -/
def Obligations.UnsolicitedAckIsIgnored : Prop :=
  ∀ (s : State) (p : List Byte),
    let ignored : State := { s with
      checking := false, events := s.events ++ [.unsolicitedAck]
      result := some (.check (match s.inst.unsolAckResult with | .data => .data | .fail => .fail)) }
    (4 ≤ p.length → exec (.ackUnsolicited p) s = .next ignored) ∧
    (p.length < 4 → exec (.ackUnsolicited p) s = .next (failedFrame s .shortPayload)) ∧
    (4 ≤ p.length → ¬ (s.pendValid = true ∧ le16 p 0 = s.pendCmd.ackId s.inst.profile) →
      exec (selectRow s.ctx .ack p) s = .next ignored) ∧
    (p.length < 4 → exec (selectRow s.ctx .ack p) s = .next (failedFrame s .shortPayload))

/-- The frame of the Ack rows: besides the request, the end of the CHECK and the ports, only the registers of the row's own command
change, and no byte of `PBUF` (R263 to R277). -/
def Obligations.AckRowsChangeOnlyTheirRegisters : Prop :=
  ∀ (s t : State) (c : Cmd) (p : List Byte), exec (ackInstr c p) s = .next t →
    t = { s with
      cfg := t.cfg, inCfg := t.inCfg, enhanced := t.enhanced, pendValid := t.pendValid, checking := false
      result := t.result, events := t.events } ∧
    (∀ a, t.asm.pbuf.read a = s.asm.pbuf.read a) ∧
    (c ≠ .enterCfg → c ≠ .exitCfg → t.inCfg = s.inCfg) ∧
    (c ≠ .enhOn → c ≠ .enhOff → t.enhanced = s.enhanced) ∧
    (c = .enterCfg → t.cfg = { s.cfg with protoVer := t.cfg.protoVer, protoValid := t.cfg.protoValid }) ∧
    (c = .readMac → t.cfg = { s.cfg with mac := t.cfg.mac, macValid := t.cfg.macValid }) ∧
    (c = .readFw → t.cfg = { s.cfg with
      fwType := t.cfg.fwType, fwMajor := t.cfg.fwMajor, fwMinor := t.cfg.fwMinor, fwValid := t.cfg.fwValid }) ∧
    (c = .readRes → t.cfg = { s.cfg with res := t.cfg.res }) ∧
    (c = .readParams → t.cfg = { s.cfg with
      maxMov := t.cfg.maxMov, maxStat := t.cfg.maxStat, range := t.cfg.range, noone := t.cfg.noone
      movThr := t.cfg.movThr, statThr := t.cfg.statThr, paramValid := t.cfg.paramValid }) ∧
    (c ∉ [Cmd.enterCfg, .readMac, .readFw, .readRes, .readParams] → t.cfg = s.cfg)

/-! ### Transmit -/

/-- R311, R312, R315 to R317, R319, R310: the ungated commands, sent in either mode while no request is pending. -/
def Obligations.UngatedTransmitSends : Prop :=
  ∀ s : State, s.pendValid = false →
    exec .txEnterCfg s = .next (sentFrame s .enterCfg
      [0xFD, 0xFC, 0xFB, 0xFA, 0x04, 0x00, 0xFF, 0x00, 0x01, 0x00, 0x04, 0x03, 0x02, 0x01]) ∧
    exec .txExitCfg s = .next (sentFrame s .exitCfg
      [0xFD, 0xFC, 0xFB, 0xFA, 0x02, 0x00, 0xFE, 0x00, 0x04, 0x03, 0x02, 0x01]) ∧
    exec .txReadMac s = .next (sentFrame s .readMac
      [0xFD, 0xFC, 0xFB, 0xFA, 0x04, 0x00, 0xA5, 0x00, 0x01, 0x00, 0x04, 0x03, 0x02, 0x01]) ∧
    exec .txReadFw s = .next (sentFrame s .readFw
      [0xFD, 0xFC, 0xFB, 0xFA, 0x02, 0x00, 0xA0, 0x00, 0x04, 0x03, 0x02, 0x01]) ∧
    exec .txReadRes s = .next (sentFrame s .readRes
      [0xFD, 0xFC, 0xFB, 0xFA, 0x02, 0x00, 0xAB, 0x00, 0x04, 0x03, 0x02, 0x01]) ∧
    exec .txReadParams s = .next (sentFrame s .readParams
      [0xFD, 0xFC, 0xFB, 0xFA, 0x02, 0x00, 0x61, 0x00, 0x04, 0x03, 0x02, 0x01])

/-- R313, R314, R318, R320 to R325 (R310, R124 to R127): the gated commands, sent in config mode while no request is pending, with every
operand value encoded as given (R326), and answered GATED outside config mode. -/
def Obligations.GatedTransmitSends : Prop :=
  ∀ (s : State) (r : Word16) (a b d : Word32), s.pendValid = false →
    (s.inCfg = false → ∀ i ∈ [Instr.txEnhOn, .txEnhOff, .txSetRes r, .txSetGateThr a b d, .txSetMaxgateNoone a b d,
        .txFactoryReset, .txReboot, .txBtOn, .txBtOff],
      exec i s = .next { s with result := some (.tx .gated), events := s.events ++ [.configGated] }) ∧
    (s.inCfg = true →
    exec .txEnhOn s = .next (sentFrame s .enhOn
      [0xFD, 0xFC, 0xFB, 0xFA, 0x02, 0x00, 0x62, 0x00, 0x04, 0x03, 0x02, 0x01]) ∧
    exec .txEnhOff s = .next (sentFrame s .enhOff
      [0xFD, 0xFC, 0xFB, 0xFA, 0x02, 0x00, 0x63, 0x00, 0x04, 0x03, 0x02, 0x01]) ∧
    exec (.txSetRes r) s = .next (sentFrame s .setRes
      ([0xFD, 0xFC, 0xFB, 0xFA, 0x04, 0x00, 0xAA, 0x00] ++ bytes16 r ++ [0x04, 0x03, 0x02, 0x01])) ∧
    exec (.txSetGateThr a b d) s = .next (sentFrame s .setGateThr
      ([0xFD, 0xFC, 0xFB, 0xFA, 0x14, 0x00, 0x64, 0x00, 0x00, 0x00] ++ bytes32 a ++ [0x01, 0x00] ++ bytes32 b ++
        [0x02, 0x00] ++ bytes32 d ++ [0x04, 0x03, 0x02, 0x01])) ∧
    exec (.txSetMaxgateNoone a b d) s = .next (sentFrame s .setMaxgateNoone
      ([0xFD, 0xFC, 0xFB, 0xFA, 0x14, 0x00, 0x60, 0x00, 0x00, 0x00] ++ bytes32 a ++ [0x01, 0x00] ++ bytes32 b ++
        [0x02, 0x00] ++ bytes32 d ++ [0x04, 0x03, 0x02, 0x01])) ∧
    exec .txFactoryReset s = .next (sentFrame s .factoryReset
      [0xFD, 0xFC, 0xFB, 0xFA, 0x02, 0x00, 0xA2, 0x00, 0x04, 0x03, 0x02, 0x01]) ∧
    exec .txReboot s = .next (sentFrame s .reboot
      [0xFD, 0xFC, 0xFB, 0xFA, 0x02, 0x00, 0xA3, 0x00, 0x04, 0x03, 0x02, 0x01]) ∧
    exec .txBtOn s = .next (sentFrame s .btOn
      [0xFD, 0xFC, 0xFB, 0xFA, 0x04, 0x00, 0xA4, 0x00, 0x01, 0x00, 0x04, 0x03, 0x02, 0x01]) ∧
    exec .txBtOff s = .next (sentFrame s .btOff
      [0xFD, 0xFC, 0xFB, 0xFA, 0x04, 0x00, 0xA4, 0x00, 0x00, 0x00, 0x04, 0x03, 0x02, 0x01]))

/-- R310, R121, R362: BUSY while a request is pending, GATED for a gated command outside config mode; no byte is written and no
register changes. -/
def Obligations.TransmitTurnedAway : Prop :=
  ∀ (s : State) (c : Cmd) (a b d : Word32),
    (s.pendValid = true → exec (txInstr c a b d) s =
      .next { s with result := some (.tx .busy), events := s.events ++ [.txBusy] }) ∧
    (s.pendValid = false → s.inCfg = false → c ∈ gatedCommands → exec (txInstr c a b d) s =
      .next { s with result := some (.tx .gated), events := s.events ++ [.configGated] })

/-- The frame of the transmit rows: only the transmit FIFO, the request registers and the ports change, and the FIFO only at its tail;
an answer other than SENT leaves FIFO and request alone. -/
def Obligations.TransmitChangesOnlyRequestAndFifo : Prop :=
  ∀ (s t : State) (c : Cmd) (a b d : Word32), exec (txInstr c a b d) s = .next t →
    t = { s with
      tx := t.tx, pendCmd := t.pendCmd, pendValid := t.pendValid, result := t.result, events := t.events } ∧
    (∀ i, t.asm.pbuf.read i = s.asm.pbuf.read i) ∧ s.tx <+: t.tx ∧
    (t.result = some (.tx .sent) →
      t.pendValid = true ∧ t.pendCmd = c ∧ t.events = s.events ∧
      t.tx.length = s.tx.length + (if c ∈ [Cmd.setGateThr, .setMaxgateNoone] then 30
        else if c ∈ [Cmd.enterCfg, .readMac, .setRes, .btOn, .btOff] then 14 else 12)) ∧
    (t.result ≠ some (.tx .sent) → t.tx = s.tx ∧ t.pendValid = s.pendValid ∧ t.pendCmd = s.pendCmd)

/-- R412: what the echo of a command frame does under DOC while its own request is pending: a command with no parameters is short, one
whose parameters begin `01 00` reads as a rejection, one whose parameters begin `00 00` as a success. -/
def Obligations.TransmitEchoUnderDoc : Prop :=
  ∀ s : State, s.inst.profile = .doc → s.pendValid = true →
    (∀ c ∈ [Cmd.exitCfg, .enhOn, .enhOff, .readFw, .readRes, .readParams, .factoryReset, .reboot], s.pendCmd = c →
      exec (selectRow s.ctx .ack (bytes16 c.id)) s = .next (failedFrame s .shortPayload)) ∧
    (∀ c ∈ [Cmd.enterCfg, .readMac, .btOn, .setRes], s.pendCmd = c →
      exec (selectRow s.ctx .ack (bytes16 c.id ++ [0x01, 0x00])) s = .next (ackedFrame s c.id 1)) ∧
    (∀ c ∈ [Cmd.setRes, .btOff, .setGateThr, .setMaxgateNoone], s.pendCmd = c → ∀ rest,
      exec (selectRow s.ctx .ack (bytes16 c.id ++ [0x00, 0x00] ++ rest)) s = .next (ackedFrame s c.id 0))

/-! ### The other host operations -/

/-- R390, R391, R72: RESET gives every register of the block its reset value and leaves both FIFOs, the time input and the instance
alone. `WIN`, `LB`, `TWIN` and `PBUF` are unspecified and left out. -/
def Obligations.ResetGivesTheResetValues : Prop :=
  ∀ s : State, ∃ t : State, exec .reset s = .next t ∧
    t.rx = s.rx ∧ t.tx = s.tx ∧ t.timeNow = s.timeNow ∧ t.inst = s.inst ∧ t.turns = s.turns ∧
    t.checking = s.checking ∧ t.events = s.events ∧ t.result = some .done ∧
    t.asm.state = .seekHeader ∧ t.asm.kind = .data ∧ t.asm.wn = 0 ∧ t.asm.ln = 0 ∧ t.asm.len = 0 ∧ t.asm.plen = 0 ∧
    t.asm.tn = 0 ∧
    t.snap = { movPres := false, statPres := false, movDist := 0, movSig := 0, statDist := 0, statSig := 0, detDist := 0
               ts := 0, movSigs := [], statSigs := [] } ∧
    t.cfg = { protoValid := false, protoVer := 0, fwValid := false, fwType := 0, fwMajor := 0, fwMinor := 0
              macValid := false, mac := #v[0, 0, 0, 0, 0, 0], res := .unknown, paramValid := false, maxMov := 0
              maxStat := 0, range := 0, noone := 0, movThr := [], statThr := [] } ∧
    t.inCfg = false ∧ t.enhanced = false ∧ t.pendValid = false ∧ t.pendCmd = .enterCfg

/-- R72, R390: after a RESET, and in the state after reset, every register that RD can name reads 0. -/
def Obligations.EveryRegisterReadsZeroAfterReset : Prop :=
  (∀ i g : Word32, State.reset.readReg i g = 0) ∧
  ∀ s t : State, exec .reset s = .next t → ∀ i g : Word32, t.readReg i g = 0

/-- R307, R359: TIMEOUT ends the pending request, forces `IN_CFG` to 0 when it is EXIT_CFG's, and does nothing with no request
pending. -/
def Obligations.TimeoutResolvesTheRequest : Prop :=
  ∀ s : State,
    (s.pendValid = true → s.pendCmd = .exitCfg → exec .timeout s = .next { s with
      inCfg := false, pendValid := false, result := some .done, events := s.events ++ [.commandTimeout] }) ∧
    (s.pendValid = true → s.pendCmd ≠ .exitCfg → exec .timeout s = .next { s with
      pendValid := false, result := some .done, events := s.events ++ [.commandTimeout] }) ∧
    (s.pendValid = false → exec .timeout s = .next { s with result := some .done })

/-- R403, R307: after a TIMEOUT an Ack of at least 4 bytes is unsolicited, whatever its id. A shorter one is in the same row by the
model's choice (assumption log 1); its own check is R205. -/
def Obligations.LateAckIsUnsolicited : Prop :=
  ∀ (s t : State) (p : List Byte), exec .timeout s = .next t → selectRow t.ctx .ack p = .ackUnsolicited p

/-- R306, R60: RD returns the register of its index, zero-extended; an array element at or beyond the end and a reserved index read
0; nothing else changes. -/
def Obligations.RdReturnsTheRegisterMap : Prop :=
  ∀ (s : State) (g : Word32),
    RdGives s 0x10 g (if s.snap.movPres then 1 else 0) ∧ RdGives s 0x11 g (if s.snap.statPres then 1 else 0) ∧
    RdGives s 0x12 g (s.snap.movDist.setWidth 32) ∧ RdGives s 0x13 g (s.snap.movSig.setWidth 32) ∧
    RdGives s 0x14 g (s.snap.statDist.setWidth 32) ∧ RdGives s 0x15 g (s.snap.statSig.setWidth 32) ∧
    RdGives s 0x16 g (s.snap.detDist.setWidth 32) ∧ RdGives s 0x17 g s.snap.ts ∧
    RdGives s 0x18 g (BitVec.ofNat 32 s.snap.movSigs.length) ∧ RdGives s 0x19 g (elementOrZero s.snap.movSigs g) ∧
    RdGives s 0x1A g (BitVec.ofNat 32 s.snap.statSigs.length) ∧ RdGives s 0x1B g (elementOrZero s.snap.statSigs g) ∧
    RdGives s 0x20 g (if s.cfg.protoValid then 1 else 0) ∧ RdGives s 0x21 g (s.cfg.protoVer.setWidth 32) ∧
    RdGives s 0x22 g (if s.cfg.fwValid then 1 else 0) ∧ RdGives s 0x23 g (s.cfg.fwType.setWidth 32) ∧
    RdGives s 0x24 g (s.cfg.fwMajor.setWidth 32) ∧ RdGives s 0x25 g s.cfg.fwMinor ∧
    RdGives s 0x26 g (if s.cfg.macValid then 1 else 0) ∧ RdGives s 0x27 g (elementOrZero s.cfg.mac.toList g) ∧
    RdGives s 0x28 g (match s.cfg.res with | .unknown => 0 | .fine20 => 1 | .coarse75 => 2) ∧
    RdGives s 0x29 g (if s.cfg.paramValid then 1 else 0) ∧ RdGives s 0x2A g (s.cfg.maxMov.setWidth 32) ∧
    RdGives s 0x2B g (s.cfg.maxStat.setWidth 32) ∧ RdGives s 0x2C g (s.cfg.range.setWidth 32) ∧
    RdGives s 0x2D g (s.cfg.noone.setWidth 32) ∧
    RdGives s 0x2E g (BitVec.ofNat 32 s.cfg.movThr.length) ∧ RdGives s 0x2F g (elementOrZero s.cfg.movThr g) ∧
    RdGives s 0x30 g (BitVec.ofNat 32 s.cfg.statThr.length) ∧ RdGives s 0x31 g (elementOrZero s.cfg.statThr g) ∧
    RdGives s 0x38 g (if s.inCfg then 1 else 0) ∧ RdGives s 0x39 g (if s.enhanced then 1 else 0) ∧
    RdGives s 0x3A g (if s.pendValid then 1 else 0) ∧ RdGives s 0x3B g (s.pendCmd.code.setWidth 32) ∧
    RdGives s 0x3C g (if s.pendValid = true ∧ s.pendCmd = .enterCfg then 1
      else if s.pendValid = true ∧ s.pendCmd = .exitCfg then 3 else if s.inCfg then 2 else 0) ∧
    ∀ i : Word32, i.toNat ∉ rdIndexes → RdGives s i g 0

/-- R308, R326: the reserved host operations and the reserved command code have no step. -/
def Obligations.ReservedCodesAreRefused : Prop :=
  ∀ s : State, exec .reservedOp5 s = .refused .reservedHostOp ∧ exec .reservedOp6 s = .refused .reservedHostOp ∧
    exec .reservedOp7 s = .refused .reservedHostOp ∧ exec .txReserved15 s = .refused .reservedCommand

/-- R10, R400, R7: a host call made while a CHECK runs is refused, and so is an instance that breaks a constraint. -/
def Obligations.OverlapAndBadInstanceAreRefused : Prop :=
  ∀ s : State,
    (s.inst.cap < s.inst.ovh ∨ s.inst.subBasic = s.inst.subEnh → step s = .refused .invalidInstance) ∧
    (s.inst.wf = true → s.checking = true → ∀ c ts, s.turns = .host c :: ts → step s = .refused .overlappingCall)

/-! ### Invariants and whole-machine rules -/

/-- R38, R40, R54, R59, R72: the state after reset meets the invariant. -/
def Obligations.InvariantAtReset : Prop := State.reset.Inv

/-- R38, R40, R54, R59: every step keeps the invariant (the assembler's counts and lengths, the arrays' bound, `RANGE`, unknown fields
zero, and no request pending under an ACK result). -/
def Obligations.InvariantKeptByEveryStep : Prop := ∀ s t : State, s.Inv → step s = .next t → t.Inv

/-- R83, R84: under the invariant no step faults, so no write leaves `PBUF` and no unwritten byte is read. -/
def Obligations.NoStepFaults : Prop := ∀ s : State, s.Inv → s.Safe

/-- R56, R371: `IN_CFG` is set only by an accepted, matched ENTER_CFG Ack, and cleared only by an accepted, matched EXIT_CFG Ack, by
TIMEOUT with EXIT_CFG pending, and by RESET. -/
def Obligations.ConfigModeEnteredAndLeftOnlyAsStated : Prop :=
  State.reset.inCfg = false ∧
  ∀ s t : State, step s = .next t →
    (s.inCfg = false → t.inCfg = true →
      s.checking = true ∧ s.pendValid = true ∧ s.pendCmd = .enterCfg ∧
        t.result = some (.check (.ack (Cmd.ackId s.inst.profile .enterCfg) 0))) ∧
    (s.inCfg = true → t.inCfg = false →
      (s.checking = true ∧ s.pendValid = true ∧ s.pendCmd = .exitCfg ∧
        t.result = some (.check (.ack (Cmd.ackId s.inst.profile .exitCfg) 0))) ∨
      (∃ c ts, s.turns = .host c :: ts ∧
        (decodeCall c = .reset ∨ decodeCall c = .timeout ∧ s.pendValid = true ∧ s.pendCmd = .exitCfg)))

/-- R55: no request is pending after reset; one becomes pending only by a TX answered SENT and ends only by its matched Ack, by TIMEOUT or
by RESET; `PEND_CMD` changes only when a request becomes pending and by RESET. -/
def Obligations.RequestSetAndClearedOnlyAsStated : Prop :=
  State.reset.pendValid = false ∧ State.reset.pendCmd.code = 0 ∧
  ∀ s t : State, step s = .next t →
    (s.pendValid = false → t.pendValid = true → t.result = some (.tx .sent) ∧
      ∃ c ts a b d, s.turns = .host c :: ts ∧ decodeCall c = txInstr t.pendCmd a b d) ∧
    (s.pendValid = true → t.pendValid = false →
      (s.checking = true ∧ ∃ status, t.result = some (.check (.ack (s.pendCmd.ackId s.inst.profile) status))) ∨
      (∃ c ts, s.turns = .host c :: ts ∧ (decodeCall c = .reset ∨ decodeCall c = .timeout))) ∧
    (t.pendCmd = s.pendCmd ∨ s.pendValid = false ∧ t.pendValid = true ∨
      (∃ c ts, s.turns = .host c :: ts ∧ decodeCall c = .reset ∧ t.pendCmd = .enterCfg))

/-- R59: no step but RESET clears a VALID bit. -/
def Obligations.ValidBitsArePermanent : Prop :=
  ∀ s t : State, step s = .next t → (∀ c ts, s.turns = .host c :: ts → decodeCall c ≠ .reset) →
    (s.cfg.protoValid = true → t.cfg.protoValid = true) ∧ (s.cfg.fwValid = true → t.cfg.fwValid = true) ∧
    (s.cfg.macValid = true → t.cfg.macValid = true) ∧ (s.cfg.paramValid = true → t.cfg.paramValid = true)

/-- R364, R353, R360, R361: a step raises at most one event, and never FRAME_SYNC, COMMAND_REJECTED or TRANSPORT_UNAVAILABLE. -/
def Obligations.AtMostOneEventPerStep : Prop :=
  ∀ s t : State, step s = .next t →
    t.events.length ≤ 1 ∧ ∀ e ∈ t.events, e ≠ .frameSync ∧ e ≠ .commandRejected ∧ e ≠ .transportUnavailable

/-- R367, R210: a step that raises an event writes neither snapshot, configuration, mode flags nor request, except that a
COMMAND_TIMEOUT ends the request and may clear `IN_CFG`. -/
def Obligations.ErrorsWriteNoVisibleState : Prop :=
  ∀ s t : State, step s = .next t → t.events ≠ [] →
    t.snap = s.snap ∧ t.cfg = s.cfg ∧ t.enhanced = s.enhanced ∧ t.pendCmd = s.pendCmd ∧ t.tx = s.tx ∧
    (t.events ≠ [.commandTimeout] → t.inCfg = s.inCfg ∧ t.pendValid = s.pendValid)

/-- R352, R303: no step reads the event output or the result of an operation. -/
def Obligations.NoStepReadsTheOutputPorts : Prop :=
  ∀ (s : State) (r : Option OpResult) (es : List Event),
    OutcomesRelated SameButPorts (step s) (step { s with result := r, events := es })

/-- R71: the time input reaches nothing but `TS`. -/
def Obligations.TimeReachesOnlyTheTimestamp : Prop :=
  ∀ (s : State) (now : Word32),
    OutcomesRelated
      (fun t u => { t with timeNow := u.timeNow, snap := { t.snap with ts := u.snap.ts } } = u)
      (step s) (step { s with timeNow := now })

/-- R343 (derived there from R262, R260, R307, R310): a request of R340 begun with none pending ends, succeeded or failed, with none
pending, whatever happens around its CHECKs. The driver that composes the request is the model's (assumption log 11). -/
def Obligations.RequestEndsWithNonePending : Prop :=
  ∀ (h : HostParams) (c : Cmd) (a b d : Word32) (qs : List Poll) (s t : State), s.Inv → s.pendValid = false →
    (request h (txInstr c a b d) qs s = .succeeded t ∨ request h (txInstr c a b d) qs s = .failed t) →
    t.pendValid = false
end

