-- ==== Sys2Proof/Laws/Memory.lean ====
section
/-! SUPPORT. The laws of the payload buffer: read after write, writes elsewhere, and that every operation keeps the canonical form
(20_memory.md R80 to R85). -/

namespace Sys2Proof.Machine

open Sys2Proof

theorem Memory.read_write_same (m : Memory) (i : Nat) (b : Byte) : Memory.read (m.write i b) i = some b := by
  induction m with
  | nil => simp [Memory.write, Memory.read]
  | cons c m ih =>
    obtain ⟨a, v⟩ := c
    unfold Memory.write
    split
    · simp [Memory.read]
    · split
      · rename_i h; simp [Memory.read, h]
      · rename_i h; simp [Memory.read, Ne.symm h, ih]

theorem Memory.read_write_other (m : Memory) (i j : Nat) (b : Byte) (h : j ≠ i) :
    Memory.read (m.write i b) j = m.read j := by
  induction m with
  | nil => simp [Memory.write, Memory.read, Ne.symm h]
  | cons c m ih =>
    obtain ⟨a, v⟩ := c
    unfold Memory.write
    split
    · simp [Memory.read, Ne.symm h]
    · split
      · rename_i h'; subst h'; simp [Memory.read, Ne.symm h]
      · simp only [Memory.read, ih]

/-- Every entry of a written memory is the new one or an old one. -/
theorem Memory.mem_write (m : Memory) (i : Nat) (b : Byte) (c : Host.Cell) (h : c ∈ m.write i b) :
    c = (i, b) ∨ c ∈ m := by
  induction m with
  | nil => simpa [Memory.write] using h
  | cons d m ih =>
    obtain ⟨a, v⟩ := d
    unfold Memory.write at h
    split at h
    · simpa using h
    · split at h
      · rename_i h'
        subst h'
        rcases List.mem_cons.mp h with h | h
        · exact .inl h
        · exact .inr (List.mem_cons_of_mem _ h)
      · rcases List.mem_cons.mp h with h | h
        · exact .inr (by simp [h])
        · exact (ih h).imp id (List.mem_cons_of_mem _)

/-- A write keeps the canonical form. -/
theorem Memory.write_wf (m : Memory) (i : Nat) (b : Byte) (h : m.wf) : Memory.wf (m.write i b) := by
  induction m with
  | nil => simp [Memory.write]
  | cons d m ih =>
    obtain ⟨a, v⟩ := d
    have hm := (List.pairwise_cons.mp h).2
    have ha := (List.pairwise_cons.mp h).1
    unfold Memory.write
    split
    · rename_i hlt
      refine List.pairwise_cons.mpr ⟨fun c hc => ?_, h⟩
      rcases List.mem_cons.mp hc with hc | hc
      · subst hc; exact hlt
      · exact Nat.lt_trans hlt (ha c hc)
    · split
      · exact List.pairwise_cons.mpr ⟨ha, hm⟩
      · refine List.pairwise_cons.mpr ⟨fun c hc => ?_, ih hm⟩
        rcases Memory.mem_write m i b c hc with hc | hc
        · subst hc; simp; omega
        · exact ha c hc

/-- A write below a bound keeps every address below it (R83). -/
theorem Memory.write_below (m : Memory) (i n : Nat) (b : Byte) (h : m.below n) (hi : i < n) :
    Memory.below (m.write i b) n := fun c hc => by
  rcases Memory.mem_write m i b c hc with hc | hc
  · subst hc; exact hi
  · exact h c hc

/-- The empty memory is in canonical form. -/
theorem Memory.wf_nil : Memory.wf [] := List.Pairwise.nil

/-- The state after reset holds the canonical form. -/
theorem reset_pbuf_wf : Memory.wf State.reset.asm.pbuf := List.Pairwise.nil

/-- A list placed from index 0 on is in canonical form. -/
theorem Memory.ofList_wf (p : List Byte) : Memory.wf (Memory.ofList p) := by
  have h : (List.range p.length).Pairwise (· < ·) := List.pairwise_lt_range
  have hmap : (Memory.ofList p).map Prod.fst = List.range p.length := by
    simp [Memory.ofList, List.map_fst_zip]
  rw [← hmap] at h
  exact List.pairwise_map.mp h

/-- The first `n` bytes can be read exactly when each has been written. -/
theorem Memory.readFirst_isSome (m : Memory) (n : Nat) :
    (m.readFirst n).isSome ↔ ∀ i < n, (m.read i).isSome := by
  induction n with
  | zero => simp [Memory.readFirst]
  | succ n ih =>
    unfold Memory.readFirst
    constructor
    · intro h i hi
      cases hp : m.readFirst n with
      | none => simp [hp] at h
      | some p =>
        cases hb : m.read n with
        | none => simp [hp, hb] at h
        | some b =>
          rcases Nat.lt_succ_iff_lt_or_eq.mp hi with hlt | heq
          · exact ih.mp (by simp [hp]) i hlt
          · subst heq; simp [hb]
    · intro h
      have h1 := ih.mpr fun i hi => h i (Nat.lt_succ_of_lt hi)
      have h2 := h n (Nat.lt_succ_self n)
      obtain ⟨p, hp⟩ := Option.isSome_iff_exists.mp h1
      obtain ⟨b, hb⟩ := Option.isSome_iff_exists.mp h2
      simp [hp, hb]

/-- What is read from index 0 on has the length asked for. -/
theorem Memory.readFirst_length (m : Memory) (n : Nat) (p : List Byte) (h : m.readFirst n = some p) :
    p.length = n := by
  induction n generalizing p with
  | zero => simp [Memory.readFirst] at h; simp [← h]
  | succ n ih =>
    unfold Memory.readFirst at h
    cases hp : m.readFirst n with
    | none => simp [hp] at h
    | some q =>
      cases hb : m.read n with
      | none => simp [hp, hb] at h
      | some b =>
        simp [hp, hb] at h
        rw [← h, List.length_append, ih q hp]; rfl

/-- A write at or above `n` leaves the first `n` bytes. -/
theorem Memory.readFirst_write_above (m : Memory) (i n : Nat) (b : Byte) (h : n ≤ i) :
    Memory.readFirst (m.write i b) n = m.readFirst n := by
  induction n with
  | zero => rfl
  | succ n ih =>
    unfold Memory.readFirst
    rw [ih (by omega), Memory.read_write_other m i n b (by omega)]

/-- An append at `n` extends the first `n` bytes (R82). -/
theorem Memory.readFirst_append (m : Memory) (n : Nat) (b : Byte) (p : List Byte) (h : m.readFirst n = some p) :
    Memory.readFirst (m.write n b) (n + 1) = some (p ++ [b]) := by
  unfold Memory.readFirst
  rw [Memory.readFirst_write_above m n n b (Nat.le_refl n), Memory.read_write_same, h]

end Sys2Proof.Machine
end

