-- ==== Sys2Proof/Laws/Decode.lean ====
section
/-! SUPPORT. Byte order (00_scope.md R12), the frame layout (30_encoding.md R100), the command table and the word of a host call:
what each reader does to what the matching writer wrote. -/

namespace Sys2Proof

/-- A 16-bit value written and read little-endian comes back. -/
theorem le16_bytes16 (v : Word16) (rest : List Byte) : le16 (bytes16 v ++ rest) 0 = v := by
  simp only [le16, bytes16, byteAt, List.cons_append, List.nil_append, List.getD_cons_zero, List.getD_cons_succ]
  ext i hi
  simp only [BitVec.getElem_or, BitVec.getElem_setWidth, BitVec.getElem_shiftLeft, BitVec.getLsbD_extractLsb']
  by_cases h : i < 8
  · simp [h, BitVec.getLsbD_eq_getElem hi]
  · have h1 : i - 8 < 8 := by omega
    have h2 : 8 + (i - 8) = i := by omega
    simp [h, h1, h2, BitVec.getLsbD_eq_getElem hi]

/-- A length below 65536 survives the 2-byte length field (R102). -/
theorem le16_length (n : Nat) (h : n < 65536) (rest : List Byte) :
    (le16 (bytes16 (BitVec.ofNat 16 n) ++ rest) 0).toNat = n := by
  rw [le16_bytes16]; simp; omega

/-- The window of a header magic is recognised as its family's (40_assembler.md R162). -/
@[simp] theorem headerOf_headerMagic (k : FrameKind) : headerOf (headerMagic k) = some k := by
  cases k <;> decide

/-- A recognised window is that family's magic. -/
theorem headerOf_eq_some (q : Quad) (k : FrameKind) (h : headerOf q = some k) : q = headerMagic k := by
  unfold headerOf at h
  split at h
  · cases h; assumption
  · split at h
    · cases h; assumption
    · cases h

/-- No tail magic is a header magic (R101). -/
@[simp] theorem headerOf_tailMagic (k : FrameKind) : headerOf (tailMagic k) = none := by
  cases k <;> decide

/-- The two families' tails differ, so the other family's tail is a mismatch (40_assembler.md R170). -/
theorem tailMagic_injective (k k' : FrameKind) (h : tailMagic k = tailMagic k') : k = k' := by
  cases k <;> cases k' <;> first | rfl | (exact absurd h (by decide))

/-- A frame is `10 + L` bytes long (R100). -/
theorem frameBytes_length (k : FrameKind) (p : List Byte) : (frameBytes k p).length = 10 + p.length := by
  simp [frameBytes, Quad.toList, bytes16]; omega

/-- The whole-frame reader gives back the family and the payload, and the bytes after the frame. -/
theorem parseFrame_frameBytes (lmax : Nat) (k : FrameKind) (p rest : List Byte) (h : p.length ≤ lmax)
    (h' : p.length < 65536) : parseFrame lmax (frameBytes k p ++ rest) = .ok (k, p, rest) := by
  have hl : (le16 [(BitVec.ofNat 16 p.length).extractLsb' 0 8, (BitVec.ofNat 16 p.length).extractLsb' 8 8] 0).toNat
      = p.length := by
    have := le16_length p.length h' []
    simpa [bytes16] using this
  have hm : headerOf ⟨(headerMagic k).b0, (headerMagic k).b1, (headerMagic k).b2, (headerMagic k).b3⟩ = some k :=
    headerOf_headerMagic k
  simp only [frameBytes, Quad.toList, bytes16, List.cons_append, List.nil_append, List.append_assoc, parseFrame,
    hm, hl, Nat.not_lt.mpr h, if_false, List.drop_left, List.take_left]
  simp

/-- Every command's code names it (30_encoding.md R120). -/
@[simp] theorem Cmd.ofCode_code (c : Cmd) : Cmd.ofCode c.code = some c := by cases c <;> rfl

/-- The code of a named command is the code it was named by. -/
theorem Cmd.code_of_ofCode (v : BitVec 4) (c : Cmd) (h : Cmd.ofCode v = some c) : c.code = v := by
  revert h; revert v; cases c <;> decide

/-- Code 15 is the one reserved code (R120). -/
theorem Cmd.ofCode_eq_none (v : BitVec 4) : Cmd.ofCode v = none ↔ v = 15 := by revert v; decide

end Sys2Proof
end

