-- ==== Sys2Proof/Laws/State.lean ====
section
/-! SUPPORT. One lemma per field per update of the state, each true by rfl, so that no proof unfolds a record update; and what
taking an error, discarding a frame and turning a transmit away leave of each field. -/

namespace Sys2Proof.Machine

open Sys2Proof

variable (s : State)

/-! 20_memory.md R87: only the transmit FIFO changes. -/

@[simp] theorem State.txPush_inst (bs : List Byte) : (s.txPush bs).inst = s.inst := rfl
@[simp] theorem State.txPush_asm (bs : List Byte) : (s.txPush bs).asm = s.asm := rfl
@[simp] theorem State.txPush_snap (bs : List Byte) : (s.txPush bs).snap = s.snap := rfl
@[simp] theorem State.txPush_cfg (bs : List Byte) : (s.txPush bs).cfg = s.cfg := rfl
@[simp] theorem State.txPush_inCfg (bs : List Byte) : (s.txPush bs).inCfg = s.inCfg := rfl
@[simp] theorem State.txPush_enhanced (bs : List Byte) : (s.txPush bs).enhanced = s.enhanced := rfl
@[simp] theorem State.txPush_pendValid (bs : List Byte) : (s.txPush bs).pendValid = s.pendValid := rfl
@[simp] theorem State.txPush_pendCmd (bs : List Byte) : (s.txPush bs).pendCmd = s.pendCmd := rfl
@[simp] theorem State.txPush_checking (bs : List Byte) : (s.txPush bs).checking = s.checking := rfl
@[simp] theorem State.txPush_rx (bs : List Byte) : (s.txPush bs).rx = s.rx := rfl
@[simp] theorem State.txPush_tx (bs : List Byte) : (s.txPush bs).tx = s.tx ++ bs := rfl
@[simp] theorem State.txPush_timeNow (bs : List Byte) : (s.txPush bs).timeNow = s.timeNow := rfl
@[simp] theorem State.txPush_turns (bs : List Byte) : (s.txPush bs).turns = s.turns := rfl
@[simp] theorem State.txPush_draws (bs : List Byte) : (s.txPush bs).draws = s.draws := rfl
@[simp] theorem State.txPush_result (bs : List Byte) : (s.txPush bs).result = s.result := rfl
@[simp] theorem State.txPush_events (bs : List Byte) : (s.txPush bs).events = s.events := rfl

/-! 44_host_ops.md R330: only the receive FIFO changes. -/

@[simp] theorem State.rxPush_inst (bs : List Byte) : (s.rxPush bs).inst = s.inst := rfl
@[simp] theorem State.rxPush_asm (bs : List Byte) : (s.rxPush bs).asm = s.asm := rfl
@[simp] theorem State.rxPush_snap (bs : List Byte) : (s.rxPush bs).snap = s.snap := rfl
@[simp] theorem State.rxPush_cfg (bs : List Byte) : (s.rxPush bs).cfg = s.cfg := rfl
@[simp] theorem State.rxPush_inCfg (bs : List Byte) : (s.rxPush bs).inCfg = s.inCfg := rfl
@[simp] theorem State.rxPush_enhanced (bs : List Byte) : (s.rxPush bs).enhanced = s.enhanced := rfl
@[simp] theorem State.rxPush_pendValid (bs : List Byte) : (s.rxPush bs).pendValid = s.pendValid := rfl
@[simp] theorem State.rxPush_pendCmd (bs : List Byte) : (s.rxPush bs).pendCmd = s.pendCmd := rfl
@[simp] theorem State.rxPush_checking (bs : List Byte) : (s.rxPush bs).checking = s.checking := rfl
@[simp] theorem State.rxPush_rx (bs : List Byte) : (s.rxPush bs).rx = s.rx ++ bs := rfl
@[simp] theorem State.rxPush_tx (bs : List Byte) : (s.rxPush bs).tx = s.tx := rfl
@[simp] theorem State.rxPush_timeNow (bs : List Byte) : (s.rxPush bs).timeNow = s.timeNow := rfl
@[simp] theorem State.rxPush_turns (bs : List Byte) : (s.rxPush bs).turns = s.turns := rfl
@[simp] theorem State.rxPush_draws (bs : List Byte) : (s.rxPush bs).draws = s.draws := rfl
@[simp] theorem State.rxPush_result (bs : List Byte) : (s.rxPush bs).result = s.result := rfl
@[simp] theorem State.rxPush_events (bs : List Byte) : (s.rxPush bs).events = s.events := rfl

/-! 20_memory.md R87: only the transmit FIFO changes. -/

@[simp] theorem State.txDrain_inst (n : Nat) : (s.txDrain n).inst = s.inst := rfl
@[simp] theorem State.txDrain_asm (n : Nat) : (s.txDrain n).asm = s.asm := rfl
@[simp] theorem State.txDrain_snap (n : Nat) : (s.txDrain n).snap = s.snap := rfl
@[simp] theorem State.txDrain_cfg (n : Nat) : (s.txDrain n).cfg = s.cfg := rfl
@[simp] theorem State.txDrain_inCfg (n : Nat) : (s.txDrain n).inCfg = s.inCfg := rfl
@[simp] theorem State.txDrain_enhanced (n : Nat) : (s.txDrain n).enhanced = s.enhanced := rfl
@[simp] theorem State.txDrain_pendValid (n : Nat) : (s.txDrain n).pendValid = s.pendValid := rfl
@[simp] theorem State.txDrain_pendCmd (n : Nat) : (s.txDrain n).pendCmd = s.pendCmd := rfl
@[simp] theorem State.txDrain_checking (n : Nat) : (s.txDrain n).checking = s.checking := rfl
@[simp] theorem State.txDrain_rx (n : Nat) : (s.txDrain n).rx = s.rx := rfl
@[simp] theorem State.txDrain_tx (n : Nat) : (s.txDrain n).tx = s.tx.drop n := rfl
@[simp] theorem State.txDrain_timeNow (n : Nat) : (s.txDrain n).timeNow = s.timeNow := rfl
@[simp] theorem State.txDrain_turns (n : Nat) : (s.txDrain n).turns = s.turns := rfl
@[simp] theorem State.txDrain_draws (n : Nat) : (s.txDrain n).draws = s.draws := rfl
@[simp] theorem State.txDrain_result (n : Nat) : (s.txDrain n).result = s.result := rfl
@[simp] theorem State.txDrain_events (n : Nat) : (s.txDrain n).events = s.events := rfl

/-! 60_exceptions.md R352: only the event output changes. -/

@[simp] theorem State.emit_inst (e : Event) : (s.emit e).inst = s.inst := rfl
@[simp] theorem State.emit_asm (e : Event) : (s.emit e).asm = s.asm := rfl
@[simp] theorem State.emit_snap (e : Event) : (s.emit e).snap = s.snap := rfl
@[simp] theorem State.emit_cfg (e : Event) : (s.emit e).cfg = s.cfg := rfl
@[simp] theorem State.emit_inCfg (e : Event) : (s.emit e).inCfg = s.inCfg := rfl
@[simp] theorem State.emit_enhanced (e : Event) : (s.emit e).enhanced = s.enhanced := rfl
@[simp] theorem State.emit_pendValid (e : Event) : (s.emit e).pendValid = s.pendValid := rfl
@[simp] theorem State.emit_pendCmd (e : Event) : (s.emit e).pendCmd = s.pendCmd := rfl
@[simp] theorem State.emit_checking (e : Event) : (s.emit e).checking = s.checking := rfl
@[simp] theorem State.emit_rx (e : Event) : (s.emit e).rx = s.rx := rfl
@[simp] theorem State.emit_tx (e : Event) : (s.emit e).tx = s.tx := rfl
@[simp] theorem State.emit_timeNow (e : Event) : (s.emit e).timeNow = s.timeNow := rfl
@[simp] theorem State.emit_turns (e : Event) : (s.emit e).turns = s.turns := rfl
@[simp] theorem State.emit_draws (e : Event) : (s.emit e).draws = s.draws := rfl
@[simp] theorem State.emit_result (e : Event) : (s.emit e).result = s.result := rfl
@[simp] theorem State.emit_events (e : Event) : (s.emit e).events = s.events ++ [e] := rfl

/-! 44_host_ops.md R300: only the result port changes. -/

@[simp] theorem State.endOp_inst (r : OpResult) : (s.endOp r).inst = s.inst := rfl
@[simp] theorem State.endOp_asm (r : OpResult) : (s.endOp r).asm = s.asm := rfl
@[simp] theorem State.endOp_snap (r : OpResult) : (s.endOp r).snap = s.snap := rfl
@[simp] theorem State.endOp_cfg (r : OpResult) : (s.endOp r).cfg = s.cfg := rfl
@[simp] theorem State.endOp_inCfg (r : OpResult) : (s.endOp r).inCfg = s.inCfg := rfl
@[simp] theorem State.endOp_enhanced (r : OpResult) : (s.endOp r).enhanced = s.enhanced := rfl
@[simp] theorem State.endOp_pendValid (r : OpResult) : (s.endOp r).pendValid = s.pendValid := rfl
@[simp] theorem State.endOp_pendCmd (r : OpResult) : (s.endOp r).pendCmd = s.pendCmd := rfl
@[simp] theorem State.endOp_checking (r : OpResult) : (s.endOp r).checking = s.checking := rfl
@[simp] theorem State.endOp_rx (r : OpResult) : (s.endOp r).rx = s.rx := rfl
@[simp] theorem State.endOp_tx (r : OpResult) : (s.endOp r).tx = s.tx := rfl
@[simp] theorem State.endOp_timeNow (r : OpResult) : (s.endOp r).timeNow = s.timeNow := rfl
@[simp] theorem State.endOp_turns (r : OpResult) : (s.endOp r).turns = s.turns := rfl
@[simp] theorem State.endOp_draws (r : OpResult) : (s.endOp r).draws = s.draws := rfl
@[simp] theorem State.endOp_result (r : OpResult) : (s.endOp r).result = some r := rfl
@[simp] theorem State.endOp_events (r : OpResult) : (s.endOp r).events = s.events := rfl

/-! 44_host_ops.md R302: the loop ends with its result. -/

@[simp] theorem State.endCheck_inst (r : CheckResult) : (s.endCheck r).inst = s.inst := rfl
@[simp] theorem State.endCheck_asm (r : CheckResult) : (s.endCheck r).asm = s.asm := rfl
@[simp] theorem State.endCheck_snap (r : CheckResult) : (s.endCheck r).snap = s.snap := rfl
@[simp] theorem State.endCheck_cfg (r : CheckResult) : (s.endCheck r).cfg = s.cfg := rfl
@[simp] theorem State.endCheck_inCfg (r : CheckResult) : (s.endCheck r).inCfg = s.inCfg := rfl
@[simp] theorem State.endCheck_enhanced (r : CheckResult) : (s.endCheck r).enhanced = s.enhanced := rfl
@[simp] theorem State.endCheck_pendValid (r : CheckResult) : (s.endCheck r).pendValid = s.pendValid := rfl
@[simp] theorem State.endCheck_pendCmd (r : CheckResult) : (s.endCheck r).pendCmd = s.pendCmd := rfl
@[simp] theorem State.endCheck_checking (r : CheckResult) : (s.endCheck r).checking = false := rfl
@[simp] theorem State.endCheck_rx (r : CheckResult) : (s.endCheck r).rx = s.rx := rfl
@[simp] theorem State.endCheck_tx (r : CheckResult) : (s.endCheck r).tx = s.tx := rfl
@[simp] theorem State.endCheck_timeNow (r : CheckResult) : (s.endCheck r).timeNow = s.timeNow := rfl
@[simp] theorem State.endCheck_turns (r : CheckResult) : (s.endCheck r).turns = s.turns := rfl
@[simp] theorem State.endCheck_draws (r : CheckResult) : (s.endCheck r).draws = s.draws := rfl
@[simp] theorem State.endCheck_result (r : CheckResult) : (s.endCheck r).result = some (.check r) := rfl
@[simp] theorem State.endCheck_events (r : CheckResult) : (s.endCheck r).events = s.events := rfl

/-! 44_host_ops.md R310: the request registers. -/

@[simp] theorem State.setPending_inst (c : Cmd) : (s.setPending c).inst = s.inst := rfl
@[simp] theorem State.setPending_asm (c : Cmd) : (s.setPending c).asm = s.asm := rfl
@[simp] theorem State.setPending_snap (c : Cmd) : (s.setPending c).snap = s.snap := rfl
@[simp] theorem State.setPending_cfg (c : Cmd) : (s.setPending c).cfg = s.cfg := rfl
@[simp] theorem State.setPending_inCfg (c : Cmd) : (s.setPending c).inCfg = s.inCfg := rfl
@[simp] theorem State.setPending_enhanced (c : Cmd) : (s.setPending c).enhanced = s.enhanced := rfl
@[simp] theorem State.setPending_pendValid (c : Cmd) : (s.setPending c).pendValid = true := rfl
@[simp] theorem State.setPending_pendCmd (c : Cmd) : (s.setPending c).pendCmd = c := rfl
@[simp] theorem State.setPending_checking (c : Cmd) : (s.setPending c).checking = s.checking := rfl
@[simp] theorem State.setPending_rx (c : Cmd) : (s.setPending c).rx = s.rx := rfl
@[simp] theorem State.setPending_tx (c : Cmd) : (s.setPending c).tx = s.tx := rfl
@[simp] theorem State.setPending_timeNow (c : Cmd) : (s.setPending c).timeNow = s.timeNow := rfl
@[simp] theorem State.setPending_turns (c : Cmd) : (s.setPending c).turns = s.turns := rfl
@[simp] theorem State.setPending_draws (c : Cmd) : (s.setPending c).draws = s.draws := rfl
@[simp] theorem State.setPending_result (c : Cmd) : (s.setPending c).result = s.result := rfl
@[simp] theorem State.setPending_events (c : Cmd) : (s.setPending c).events = s.events := rfl

/-! 10_state.md R55: the request ends. -/

@[simp] theorem State.clearPending_inst : (s.clearPending).inst = s.inst := rfl
@[simp] theorem State.clearPending_asm : (s.clearPending).asm = s.asm := rfl
@[simp] theorem State.clearPending_snap : (s.clearPending).snap = s.snap := rfl
@[simp] theorem State.clearPending_cfg : (s.clearPending).cfg = s.cfg := rfl
@[simp] theorem State.clearPending_inCfg : (s.clearPending).inCfg = s.inCfg := rfl
@[simp] theorem State.clearPending_enhanced : (s.clearPending).enhanced = s.enhanced := rfl
@[simp] theorem State.clearPending_pendValid : (s.clearPending).pendValid = false := rfl
@[simp] theorem State.clearPending_pendCmd : (s.clearPending).pendCmd = s.pendCmd := rfl
@[simp] theorem State.clearPending_checking : (s.clearPending).checking = s.checking := rfl
@[simp] theorem State.clearPending_rx : (s.clearPending).rx = s.rx := rfl
@[simp] theorem State.clearPending_tx : (s.clearPending).tx = s.tx := rfl
@[simp] theorem State.clearPending_timeNow : (s.clearPending).timeNow = s.timeNow := rfl
@[simp] theorem State.clearPending_turns : (s.clearPending).turns = s.turns := rfl
@[simp] theorem State.clearPending_draws : (s.clearPending).draws = s.draws := rfl
@[simp] theorem State.clearPending_result : (s.clearPending).result = s.result := rfl
@[simp] theorem State.clearPending_events : (s.clearPending).events = s.events := rfl

/-! 44_host_ops.md R307: the request ends, and a pending EXIT_CFG clears IN_CFG. -/

@[simp] theorem State.expirePending_inst : (s.expirePending).inst = s.inst := rfl
@[simp] theorem State.expirePending_asm : (s.expirePending).asm = s.asm := rfl
@[simp] theorem State.expirePending_snap : (s.expirePending).snap = s.snap := rfl
@[simp] theorem State.expirePending_cfg : (s.expirePending).cfg = s.cfg := rfl
@[simp] theorem State.expirePending_inCfg : (s.expirePending).inCfg = (s.inCfg && !(s.pendValid && s.pendCmd == .exitCfg)) := rfl
@[simp] theorem State.expirePending_enhanced : (s.expirePending).enhanced = s.enhanced := rfl
@[simp] theorem State.expirePending_pendValid : (s.expirePending).pendValid = false := rfl
@[simp] theorem State.expirePending_pendCmd : (s.expirePending).pendCmd = s.pendCmd := rfl
@[simp] theorem State.expirePending_checking : (s.expirePending).checking = s.checking := rfl
@[simp] theorem State.expirePending_rx : (s.expirePending).rx = s.rx := rfl
@[simp] theorem State.expirePending_tx : (s.expirePending).tx = s.tx := rfl
@[simp] theorem State.expirePending_timeNow : (s.expirePending).timeNow = s.timeNow := rfl
@[simp] theorem State.expirePending_turns : (s.expirePending).turns = s.turns := rfl
@[simp] theorem State.expirePending_draws : (s.expirePending).draws = s.draws := rfl
@[simp] theorem State.expirePending_result : (s.expirePending).result = s.result := rfl
@[simp] theorem State.expirePending_events : (s.expirePending).events = s.events := rfl

/-! 70_reset_and_hazards.md R390, R391: the block's registers, not the FIFOs. -/

@[simp] theorem State.resetRegisters_inst : (s.resetRegisters).inst = s.inst := rfl
@[simp] theorem State.resetRegisters_asm : (s.resetRegisters).asm = Asm.afterReset s.draws := rfl
@[simp] theorem State.resetRegisters_snap : (s.resetRegisters).snap = .empty := rfl
@[simp] theorem State.resetRegisters_cfg : (s.resetRegisters).cfg = .unknown := rfl
@[simp] theorem State.resetRegisters_inCfg : (s.resetRegisters).inCfg = false := rfl
@[simp] theorem State.resetRegisters_enhanced : (s.resetRegisters).enhanced = false := rfl
@[simp] theorem State.resetRegisters_pendValid : (s.resetRegisters).pendValid = false := rfl
@[simp] theorem State.resetRegisters_pendCmd : (s.resetRegisters).pendCmd = .enterCfg := rfl
@[simp] theorem State.resetRegisters_checking : (s.resetRegisters).checking = s.checking := rfl
@[simp] theorem State.resetRegisters_rx : (s.resetRegisters).rx = s.rx := rfl
@[simp] theorem State.resetRegisters_tx : (s.resetRegisters).tx = s.tx := rfl
@[simp] theorem State.resetRegisters_timeNow : (s.resetRegisters).timeNow = s.timeNow := rfl
@[simp] theorem State.resetRegisters_turns : (s.resetRegisters).turns = s.turns := rfl
@[simp] theorem State.resetRegisters_draws : (s.resetRegisters).draws = s.draws + 9 := rfl
@[simp] theorem State.resetRegisters_result : (s.resetRegisters).result = s.result := rfl
@[simp] theorem State.resetRegisters_events : (s.resetRegisters).events = s.events := rfl

/-! 42_data_decoder.md R236: the snapshot is replaced whole and CHECK answers DATA. -/

@[simp] theorem State.commit_inst (f : BasicFields) (v w : GateArray) : (s.commit f v w).inst = s.inst := rfl
@[simp] theorem State.commit_asm (f : BasicFields) (v w : GateArray) : (s.commit f v w).asm = s.asm := rfl
@[simp] theorem State.commit_snap (f : BasicFields) (v w : GateArray) : (s.commit f v w).snap = snapshotOf f v w s.timeNow := rfl
@[simp] theorem State.commit_cfg (f : BasicFields) (v w : GateArray) : (s.commit f v w).cfg = s.cfg := rfl
@[simp] theorem State.commit_inCfg (f : BasicFields) (v w : GateArray) : (s.commit f v w).inCfg = s.inCfg := rfl
@[simp] theorem State.commit_enhanced (f : BasicFields) (v w : GateArray) : (s.commit f v w).enhanced = s.enhanced := rfl
@[simp] theorem State.commit_pendValid (f : BasicFields) (v w : GateArray) : (s.commit f v w).pendValid = s.pendValid := rfl
@[simp] theorem State.commit_pendCmd (f : BasicFields) (v w : GateArray) : (s.commit f v w).pendCmd = s.pendCmd := rfl
@[simp] theorem State.commit_checking (f : BasicFields) (v w : GateArray) : (s.commit f v w).checking = false := rfl
@[simp] theorem State.commit_rx (f : BasicFields) (v w : GateArray) : (s.commit f v w).rx = s.rx := rfl
@[simp] theorem State.commit_tx (f : BasicFields) (v w : GateArray) : (s.commit f v w).tx = s.tx := rfl
@[simp] theorem State.commit_timeNow (f : BasicFields) (v w : GateArray) : (s.commit f v w).timeNow = s.timeNow := rfl
@[simp] theorem State.commit_turns (f : BasicFields) (v w : GateArray) : (s.commit f v w).turns = s.turns := rfl
@[simp] theorem State.commit_draws (f : BasicFields) (v w : GateArray) : (s.commit f v w).draws = s.draws := rfl
@[simp] theorem State.commit_result (f : BasicFields) (v w : GateArray) : (s.commit f v w).result = some (.check .data) := rfl
@[simp] theorem State.commit_events (f : BasicFields) (v w : GateArray) : (s.commit f v w).events = s.events := rfl

/-! 60_exceptions.md R365: what an error can write. -/

@[simp] theorem State.takeError_inst (e : Event) : (s.takeError e).inst = s.inst := by cases e <;> rfl
@[simp] theorem State.takeError_snap (e : Event) : (s.takeError e).snap = s.snap := by cases e <;> rfl
@[simp] theorem State.takeError_cfg (e : Event) : (s.takeError e).cfg = s.cfg := by cases e <;> rfl
@[simp] theorem State.takeError_enhanced (e : Event) : (s.takeError e).enhanced = s.enhanced := by cases e <;> rfl
@[simp] theorem State.takeError_pendCmd (e : Event) : (s.takeError e).pendCmd = s.pendCmd := by cases e <;> rfl
@[simp] theorem State.takeError_checking (e : Event) : (s.takeError e).checking = s.checking := by cases e <;> rfl
@[simp] theorem State.takeError_rx (e : Event) : (s.takeError e).rx = s.rx := by cases e <;> rfl
@[simp] theorem State.takeError_tx (e : Event) : (s.takeError e).tx = s.tx := by cases e <;> rfl
@[simp] theorem State.takeError_timeNow (e : Event) : (s.takeError e).timeNow = s.timeNow := by cases e <;> rfl
@[simp] theorem State.takeError_turns (e : Event) : (s.takeError e).turns = s.turns := by cases e <;> rfl
@[simp] theorem State.takeError_draws (e : Event) : (s.takeError e).draws = s.draws := by cases e <;> rfl
@[simp] theorem State.takeError_result (e : Event) : (s.takeError e).result = s.result := by cases e <;> rfl

/-- Only LENGTH_OVERFLOW and TAIL_MISMATCH touch the assembler (R365). -/
@[simp] theorem State.takeError_asm (e : Event) : (s.takeError e).asm = s.asm.resync e := by cases e <;> rfl

/-- Only a timeout writes `IN_CFG` (60_exceptions.md R367). -/
theorem State.takeError_inCfg (e : Event) (h : e ≠ .commandTimeout) : (s.takeError e).inCfg = s.inCfg := by
  cases e <;> first | rfl | contradiction

/-- Only a rejection and a timeout write `PEND_VALID` (60_exceptions.md R367). -/
theorem State.takeError_pendValid (e : Event) (h : e ≠ .commandTimeout) (h' : e ≠ .commandRejected) :
    (s.takeError e).pendValid = s.pendValid := by
  cases e <;> first | rfl | contradiction

/-- The errors by which a completed frame is discarded or a transmit turned away: they write nothing but the event output
(60_exceptions.md R365). -/
def Event.Passive (e : Event) : Prop :=
  e = .unknownSubtype ∨ e = .shortPayload ∨ e = .badMarker ∨ e = .configGated ∨ e = .txBusy ∨
    e = .unsolicitedAck ∨ e = .dataBlocked

/-- A passive error only emits its event. -/
theorem State.takeError_passive (e : Event) (h : e.Passive) : s.takeError e = s.emit e := by
  rcases h with h | h | h | h | h | h | h <;> subst h <;> rfl

/-- A discarded frame: the event, and CHECK answers FAIL; nothing else changes (41_classifier.md R210). -/
theorem State.discard_passive (e : Event) (h : e.Passive) :
    s.discard e = { s with checking := false, result := some (.check .fail), events := s.events ++ [e] } := by
  unfold State.discard; rw [s.takeError_passive e h]; rfl

/-- A transmit turned away: the event and the result; nothing else changes (60_exceptions.md R362). -/
theorem State.turnAway_passive (e : Event) (r : TxResult) (h : e.Passive) :
    s.turnAway e r = { s with result := some (.tx r), events := s.events ++ [e] } := by
  unfold State.turnAway; rw [s.takeError_passive e h]; rfl

end Sys2Proof.Machine
end

