-- ==== Sys2Proof/Laws/Ops.lean ====
section
/-! SUPPORT. What each shared operation of the meanings can do, said once: the Ack decoder, the transmit encoder, the Data checks, and
what a completed frame's meaning answers whatever row it is. -/

namespace Sys2Proof.Machine

open Sys2Proof

/-! ### The Ack decoder (43_ack_decoder.md R260 to R262) -/

/-- A rejection ends the request and writes nothing else (R260). -/
theorem acceptAck_rejected (c : Cmd) (e : State → State) (p : List Byte) (s : State) (h : ackStatus p ≠ 0) :
    acceptAck c e p s =
      .next { s with pendValid := false, checking := false, result := some (.check (.ack (ackAid p) (ackStatus p))) } := by
  unfold acceptAck; rw [if_pos h]; rfl

/-- A success without its return data is discarded and the request stays pending (R261). -/
theorem acceptAck_short (c : Cmd) (e : State → State) (p : List Byte) (s : State) (h : ackStatus p = 0)
    (hl : p.length < ackNeed c) : acceptAck c e p s = .next (s.discard .shortPayload) := by
  unfold acceptAck; rw [if_neg (by simp [h]), if_pos hl]

/-- An accepted Ack has its effect, ends the request and reports status 0 (R262). -/
theorem acceptAck_accepted (c : Cmd) (e : State → State) (p : List Byte) (s : State) (h : ackStatus p = 0)
    (hl : ackNeed c ≤ p.length) :
    acceptAck c e p s = .next ((e s).clearPending.endCheck (.ack (ackAid p) 0)) := by
  unfold acceptAck; rw [if_neg (by simp [h]), if_neg (Nat.not_lt.mpr hl)]

/-- Everything the Ack decoder can do. -/
theorem acceptAck_cases (c : Cmd) (e : State → State) (p : List Byte) (s : State) :
    (ackStatus p ≠ 0 ∧ acceptAck c e p s =
      .next { s with pendValid := false, checking := false, result := some (.check (.ack (ackAid p) (ackStatus p))) }) ∨
    (ackStatus p = 0 ∧ p.length < ackNeed c ∧ acceptAck c e p s = .next (s.discard .shortPayload)) ∨
    (ackStatus p = 0 ∧ ackNeed c ≤ p.length ∧
      acceptAck c e p s = .next ((e s).clearPending.endCheck (.ack (ackAid p) 0))) := by
  by_cases h : ackStatus p = 0
  · rcases Nat.lt_or_ge p.length (ackNeed c) with hl | hl
    · exact .inr (.inl ⟨h, hl, acceptAck_short c e p s h hl⟩)
    · exact .inr (.inr ⟨h, hl, acceptAck_accepted c e p s h hl⟩)
  · exact .inl ⟨h, acceptAck_rejected c e p s h⟩

/-- The effect of an accepted Ack on the state, per command (R263 to R277). -/
def ackEffect (p : List Byte) : Cmd → State → State
  | .enterCfg, s => effectEnterCfg p s
  | .exitCfg, s => { s with inCfg := false }
  | .enhOn, s => { s with enhanced := true }
  | .enhOff, s => { s with enhanced := false }
  | .readMac, s => effectReadMac p s
  | .readFw, s => effectReadFw p s
  | .readRes, s => effectReadRes p s
  | .readParams, s => effectReadParams p s
  | .setRes, s => s
  | .setGateThr, s => s
  | .setMaxgateNoone, s => s
  | .factoryReset, s => s
  | .reboot, s => s
  | .btOn, s => s
  | .btOff, s => s

/-- Every Ack row is the Ack decoder with its command's effect. -/
theorem exec_ackInstr (c : Cmd) (p : List Byte) (s : State) :
    exec (ackInstr c p) s = acceptAck c (ackEffect p c) p s := by cases c <;> rfl

/-- An effect writes the configuration and the two mode flags only. -/
theorem ackEffect_frame (p : List Byte) (c : Cmd) (s : State) :
    ackEffect p c s = { s with
      cfg := (ackEffect p c s).cfg, inCfg := (ackEffect p c s).inCfg, enhanced := (ackEffect p c s).enhanced } := by
  cases c <;> rfl

/-! ### The transmit encoder (44_host_ops.md R310) -/

/-- BUSY: nothing is written (R310, R405). -/
theorem transmit_busy (c : Cmd) (q : List Byte) (s : State) (h : s.pendValid = true) :
    transmit c q s = .next { s with result := some (.tx .busy), events := s.events ++ [.txBusy] } := by
  unfold transmit; rw [if_pos h, s.turnAway_passive _ _ (by simp [Event.Passive])]

/-- GATED: nothing is written (R310). -/
theorem transmit_gated (c : Cmd) (q : List Byte) (s : State) (h : s.pendValid = false) (hg : gated c = true)
    (hc : s.inCfg = false) :
    transmit c q s = .next { s with result := some (.tx .gated), events := s.events ++ [.configGated] } := by
  unfold transmit
  rw [if_neg (by simp [h]), if_pos (by simp [hg, hc]), s.turnAway_passive _ _ (by simp [Event.Passive])]

/-- SENT: the whole frame is appended and the request is pending (R310). -/
theorem transmit_sent (c : Cmd) (q : List Byte) (s : State) (h : s.pendValid = false)
    (hg : gated c = true → s.inCfg = true) :
    transmit c q s = .next { s with
      tx := s.tx ++ commandFrame c q, pendCmd := c, pendValid := true, result := some (.tx .sent) } := by
  unfold transmit
  rw [if_neg (by simp [h]), if_neg (by simpa using hg)]; rfl

/-- Everything a transmit can do. -/
theorem transmit_cases (c : Cmd) (q : List Byte) (s : State) :
    (s.pendValid = true ∧ transmit c q s =
      .next { s with result := some (.tx .busy), events := s.events ++ [.txBusy] }) ∨
    (s.pendValid = false ∧ gated c = true ∧ s.inCfg = false ∧ transmit c q s =
      .next { s with result := some (.tx .gated), events := s.events ++ [.configGated] }) ∨
    (s.pendValid = false ∧ (gated c = true → s.inCfg = true) ∧ transmit c q s = .next { s with
      tx := s.tx ++ commandFrame c q, pendCmd := c, pendValid := true, result := some (.tx .sent) }) := by
  by_cases h : s.pendValid = true
  · exact .inl ⟨h, transmit_busy c q s h⟩
  · have h := eq_false_of_ne_true h
    by_cases hg : gated c = true ∧ s.inCfg = false
    · exact .inr (.inl ⟨h, hg.1, hg.2, transmit_gated c q s h hg.1 hg.2⟩)
    · have hg' : gated c = true → s.inCfg = true := fun hc => eq_true_of_ne_false fun hi => hg ⟨hc, hi⟩
      exact .inr (.inr ⟨h, hg', transmit_sent c q s h hg'⟩)

/-- The parameter bytes of a command with its operands (30_encoding.md R122 to R128). -/
def txParams (a b d : Word32) : Cmd → List Byte
  | .enterCfg => paramsOne
  | .readMac => paramsOne
  | .btOn => paramsOne
  | .btOff => paramsZero
  | .setRes => paramsSetRes (a.extractLsb' 0 16)
  | .setGateThr => paramsSetGateThr a b d
  | .setMaxgateNoone => paramsSetMaxgateNoone a b d
  | .exitCfg => []
  | .enhOn => []
  | .enhOff => []
  | .readFw => []
  | .readRes => []
  | .readParams => []
  | .factoryReset => []
  | .reboot => []

/-- Every transmit row is the transmit encoder with its command's parameters. -/
theorem exec_txInstr (c : Cmd) (a b d : Word32) (s : State) :
    exec (txInstr c a b d) s = transmit c (txParams a b d c) s := by cases c <;> rfl

/-! ### The Data checks (41_classifier.md R203, 42_data_decoder.md R231 to R236) -/

theorem unlessBlocked_blocked (s : State) (k : State → Host.Outcome State Fault Refusal) (h : s.dataBlocked = true) :
    unlessBlocked s k = .next (s.discard .dataBlocked) := if_pos h

theorem unlessBlocked_open (s : State) (k : State → Host.Outcome State Fault Refusal) (h : s.dataBlocked = false) :
    unlessBlocked s k = k s := if_neg (by simp [h])

theorem needBytes_short (n : Nat) (p : List Byte) (s : State) (k : State → Host.Outcome State Fault Refusal)
    (h : p.length < n) : needBytes n p s k = .next (s.discard .shortPayload) := if_pos h

theorem needBytes_enough (n : Nat) (p : List Byte) (s : State) (k : State → Host.Outcome State Fault Refusal)
    (h : n ≤ p.length) : needBytes n p s k = k s := if_neg (Nat.not_lt.mpr h)

theorem needMarker_present (p : List Byte) (s : State) (k : State → Host.Outcome State Fault Refusal)
    (h : 2 ≤ p.length) (hm : byteAt p 1 = 0xAA) : needMarker p s k = k s := by
  unfold needMarker; rw [needBytes_enough 2 p s _ h, if_neg (by simp [hm])]

theorem needMarker_absent (p : List Byte) (s : State) (k : State → Host.Outcome State Fault Refusal)
    (h : 2 ≤ p.length) (hm : byteAt p 1 ≠ 0xAA) : needMarker p s k = .next (s.discard .badMarker) := by
  unfold needMarker; rw [needBytes_enough 2 p s _ h, if_pos hm]

/-- What a Data row can answer: the frame is discarded by a passive error, or a snapshot with arrays of at most nine entries is
committed. -/
def DataOutcome (s : State) (o : Host.Outcome State Fault Refusal) : Prop :=
  (∃ e : Event, e.Passive ∧ o = .next (s.discard e)) ∨
  (∃ (f : BasicFields) (v w : GateArray), v.length ≤ gmax ∧ w.length ≤ gmax ∧ o = .next (s.commit f v w))

theorem DataOutcome.discard (s : State) (e : Event) (h : e.Passive) : DataOutcome s (.next (s.discard e)) :=
  .inl ⟨e, h, rfl⟩

theorem DataOutcome.commit (s : State) (f : BasicFields) (v w : GateArray) (hv : v.length ≤ gmax)
    (hw : w.length ≤ gmax) : DataOutcome s (.next (s.commit f v w)) := .inr ⟨f, v, w, hv, hw, rfl⟩

theorem unlessBlocked_outcome (s : State) (k : State → Host.Outcome State Fault Refusal) (h : DataOutcome s (k s)) :
    DataOutcome s (unlessBlocked s k) := by
  unfold unlessBlocked; split
  · exact .discard s _ (by simp [Event.Passive])
  · exact h

theorem needBytes_outcome (n : Nat) (p : List Byte) (s : State) (k : State → Host.Outcome State Fault Refusal)
    (h : DataOutcome s (k s)) : DataOutcome s (needBytes n p s k) := by
  unfold needBytes; split
  · exact .discard s _ (by simp [Event.Passive])
  · exact h

theorem needMarker_outcome (p : List Byte) (s : State) (k : State → Host.Outcome State Fault Refusal)
    (h : DataOutcome s (k s)) : DataOutcome s (needMarker p s k) := by
  unfold needMarker
  refine needBytes_outcome 2 p s _ ?_
  split
  · exact .discard s _ (by simp [Event.Passive])
  · exact h

/-- A slice is no longer than asked for. -/
theorem slice_length_le (p : List Byte) (i n : Nat) : (slice p i n).length ≤ n := by
  simp [slice]

/-- A slice inside the sequence has the length asked for. -/
theorem slice_length (p : List Byte) (i n : Nat) (h : i + n ≤ p.length) : (slice p i n).length = n := by
  simp [slice]; omega

theorem gateCount_le (d : DeviceConfig) : gateCount d ≤ gmax := by
  unfold gateCount; split
  · exact Nat.min_le_right _ _
  · exact Nat.zero_le _

theorem execDataBasic_outcome (p : List Byte) (s : State) : DataOutcome s (execDataBasic p s) :=
  unlessBlocked_outcome s _ (needBytes_outcome 10 p s _ (.commit s _ [] [] (Nat.zero_le _) (Nat.zero_le _)))

theorem execDataEnhanced_outcome (p : List Byte) (s : State) : DataOutcome s (execDataEnhanced p s) :=
  unlessBlocked_outcome s _ (needBytes_outcome _ p s _
    (.commit s _ _ _ (Nat.le_trans (slice_length_le _ _ _) (gateCount_le _))
      (Nat.le_trans (slice_length_le _ _ _) (gateCount_le _))))

theorem execDataBasicVendor_outcome (p : List Byte) (s : State) : DataOutcome s (execDataBasicVendor p s) :=
  unlessBlocked_outcome s _ (needMarker_outcome p s _ (needBytes_outcome 11 p s _
    (.commit s _ [] [] (Nat.zero_le _) (Nat.zero_le _))))

theorem execDataEnhancedVendor_outcome (p : List Byte) (s : State) : DataOutcome s (execDataEnhancedVendor p s) :=
  unlessBlocked_outcome s _ (needMarker_outcome p s _ (needBytes_outcome 13 p s _ (needBytes_outcome _ p s _
    (.commit s _ _ _ (Nat.le_trans (slice_length_le _ _ _) (Nat.min_le_right _ _))
      (Nat.le_trans (slice_length_le _ _ _) (Nat.min_le_right _ _))))))

theorem execDataBadMarkerVendor_outcome (p : List Byte) (s : State) : DataOutcome s (execDataBadMarkerVendor p s) :=
  unlessBlocked_outcome s _ (needBytes_outcome 2 p s _ (.discard s _ (by simp [Event.Passive])))

theorem execDataReservedSubtype_outcome (p : List Byte) (s : State) :
    DataOutcome s (execDataReservedSubtype p s) :=
  needBytes_outcome 1 p s _ (.discard s _ (by simp [Event.Passive]))

/-- A short or unmatched Ack writes no register (41_classifier.md R205, R208). -/
theorem execAckUnsolicited_cases (p : List Byte) (s : State) :
    (p.length < 4 ∧ execAckUnsolicited p s = .next (s.discard .shortPayload)) ∨
    (4 ≤ p.length ∧ execAckUnsolicited p s = .next { s with
      checking := false, result := some (.check (unsolicitedResult s.inst)), events := s.events ++ [.unsolicitedAck] }) := by
  unfold execAckUnsolicited
  rcases Nat.lt_or_ge p.length 4 with h | h
  · exact .inl ⟨h, if_pos h⟩
  · exact .inr ⟨h, by rw [if_neg (Nat.not_lt.mpr h), s.takeError_passive _ (by simp [Event.Passive])]; rfl⟩

/-! ### The row of a completed frame -/

/-- Whatever Data row a payload selects, its meaning discards or commits. -/
theorem exec_selectData (x : DecodeCtx) (p : List Byte) (s : State) : DataOutcome s (exec (selectData x p) s) := by
  unfold selectData
  split
  · exact execDataReservedSubtype_outcome [] s
  · split
    · exact execDataReservedSubtype_outcome _ s
    · split
      · split
        · exact execDataBasic_outcome _ s
        · exact execDataEnhanced_outcome _ s
      · split
        · split
          · exact execDataBasicVendor_outcome _ s
          · exact execDataEnhancedVendor_outcome _ s
        · exact execDataBadMarkerVendor_outcome _ s

/-- The Ack row of a payload: the pending command's, or the unsolicited row (41_classifier.md R207, R208). -/
theorem selectAck_cases (x : DecodeCtx) (p : List Byte) :
    selectAck x p = .ackUnsolicited p ∨
    (∃ c, x.pend = some c ∧ 4 ≤ p.length ∧ le16 p 0 = c.ackId x.profile ∧ selectAck x p = ackInstr c p) := by
  unfold selectAck
  split
  · exact .inl rfl
  · rename_i hl
    split
    · exact .inl rfl
    · rename_i c hc
      split
      · rename_i ha
        exact .inr ⟨c, hc, Nat.le_of_not_lt hl, ha, rfl⟩
      · exact .inl rfl

/-- A state has a pending request exactly when `PEND_VALID` is set, and then it is `PEND_CMD`'s (10_state.md R55). -/
theorem State.pending_eq_some (s : State) (c : Cmd) : s.pending = some c ↔ s.pendValid = true ∧ s.pendCmd = c := by
  unfold State.pending; cases s.pendValid <;> simp

/-- Every completed frame's meaning answers a next state in which the CHECK has ended (40_assembler.md R172). -/
theorem exec_selectRow_next (x : DecodeCtx) (k : FrameKind) (p : List Byte) (s : State) :
    ∃ t, exec (selectRow x k p) s = .next t ∧ t.checking = false := by
  cases k with
  | data =>
    rcases exec_selectData x p s with ⟨e, _, h⟩ | ⟨f, v, w, _, _, h⟩
    · exact ⟨_, h, rfl⟩
    · exact ⟨_, h, rfl⟩
  | ack =>
    rcases selectAck_cases x p with h | ⟨c, _, _, _, h⟩
    · rcases execAckUnsolicited_cases p s with ⟨_, h'⟩ | ⟨_, h'⟩
      · exact ⟨_, (congrArg (fun i => exec i s) h).trans h', rfl⟩
      · exact ⟨_, (congrArg (fun i => exec i s) h).trans h', rfl⟩
    · have h1 : exec (selectRow x .ack p) s = acceptAck c (ackEffect p c) p s :=
        (congrArg (fun i => exec i s) h).trans (exec_ackInstr c p s)
      rcases acceptAck_cases c (ackEffect p c) p s with ⟨_, h'⟩ | ⟨_, _, h'⟩ | ⟨_, _, h'⟩
      · exact ⟨_, h1.trans h', rfl⟩
      · exact ⟨_, h1.trans h', rfl⟩
      · exact ⟨_, h1.trans h', rfl⟩

end Sys2Proof.Machine
end

