-- ==== Sys2Proof/Laws/Assembler.lean ====
section
/-! SUPPORT. The byte step: what each state's rule answers (40_assembler.md R161 to R171), and that it keeps the assembler's invariant
and never faults under it (10_state.md R38, 20_memory.md R83, R84). -/

namespace Sys2Proof.Machine

open Sys2Proof

/-! ### The header test and the resynchronisation -/

/-- A window that is not full is not tested. -/
theorem Asm.headerTest_short (a : Asm) (h : a.wn ≠ 4) : a.headerTest = a := if_neg h

/-- A full window that is no header stays (R163). -/
theorem Asm.headerTest_none (a : Asm) (h : headerOf a.win = none) : a.headerTest = a := by
  unfold Asm.headerTest; split
  · rw [h]
  · rfl

/-- A full window that is a header opens a frame of its family (R162). -/
theorem Asm.headerTest_some (a : Asm) (k : FrameKind) (hw : a.wn = 4) (h : headerOf a.win = some k) :
    a.headerTest = { a with kind := k, state := .readLength, wn := 0, ln := 0 } := by
  unfold Asm.headerTest; rw [if_pos hw, h]

/-- The header test leaves the buffer, the tail window and the lengths alone. -/
@[simp] theorem Asm.headerTest_pbuf (a : Asm) : a.headerTest.pbuf = a.pbuf := by
  unfold Asm.headerTest; repeat' split
  all_goals rfl
@[simp] theorem Asm.headerTest_tn (a : Asm) : a.headerTest.tn = a.tn := by
  unfold Asm.headerTest; repeat' split
  all_goals rfl
@[simp] theorem Asm.headerTest_len (a : Asm) : a.headerTest.len = a.len := by
  unfold Asm.headerTest; repeat' split
  all_goals rfl
@[simp] theorem Asm.headerTest_plen (a : Asm) : a.headerTest.plen = a.plen := by
  unfold Asm.headerTest; repeat' split
  all_goals rfl

/-- After the header test of a SEEK_HEADER assembler: SEEK_HEADER with a window that is no header, or READ_LENGTH with an empty
window and no length byte. -/
theorem Asm.headerTest_state (a : Asm) (h : a.state = .seekHeader) :
    (a.headerTest = a ∧ a.headerTest.state = .seekHeader ∧ (a.wn = 4 → headerOf a.win = none)) ∨
    (a.headerTest.state = .readLength ∧ a.headerTest.wn = 0 ∧ a.headerTest.ln = 0) := by
  by_cases hw : a.wn = 4
  · cases hh : headerOf a.win with
    | none =>
      rw [Asm.headerTest_none a hh]
      exact .inl ⟨rfl, h, fun _ => rfl⟩
    | some k => exact .inr (by rw [Asm.headerTest_some a k hw hh]; exact ⟨rfl, rfl, rfl⟩)
  · rw [Asm.headerTest_short a hw]
    exact .inl ⟨rfl, h, fun h4 => absurd h4 hw⟩

/-! ### The invariant -/

/-- An assembler in SEEK_HEADER or READ_LENGTH needs only its counts and the buffer's form. -/
theorem Asm.Inv.of_idle (c : Instance) (a : Asm) (hs : a.state = .seekHeader ∨ a.state = .readLength)
    (hw : a.wn ≤ 4) (hl : a.ln ≤ 1) (ht : a.tn ≤ 3)
    (hh : a.state = .seekHeader → a.wn = 4 → headerOf a.win = none)
    (hp : a.pbuf.wf) (hb : a.pbuf.below c.cap) : a.Inv c := by
  refine ⟨hw, hl, ht, ?_, ?_, ?_, hh, hp, hb, ?_⟩ <;> intro h <;> rcases hs with hs | hs <;> simp [hs] at h

/-- The header test of a SEEK_HEADER assembler gives the invariant. -/
theorem Asm.Inv.headerTest (c : Instance) (a : Asm) (hs : a.state = .seekHeader) (hw : a.wn ≤ 4) (hl : a.ln ≤ 1)
    (ht : a.tn ≤ 3) (hp : a.pbuf.wf) (hb : a.pbuf.below c.cap) : a.headerTest.Inv c := by
  rcases Asm.headerTest_state a hs with ⟨he, hs', hh⟩ | ⟨hs', hw', hl'⟩
  · rw [he]; exact .of_idle c a (.inl hs) hw hl ht (fun _ => hh) hp hb
  · refine .of_idle c _ (.inr hs') (by omega) (by omega) (by simpa using ht) ?_ (by simpa using hp)
      (by simpa using hb)
    intro h; simp [hs'] at h

/-- What a byte step answers keeps the invariant, errors resolved. -/
def ByteOut.Keeps (c : Instance) : ByteOut → Prop
  | .none a => a.Inv c
  | .error e a => (a.resync e).Inv c
  | .complete _ _ a => a.Inv c ∧ a.state = .seekHeader ∧ a.wn = 0
  | .fault _ => False

theorem seekStep_keeps (c : Instance) (b : Byte) (a : Asm) (h : a.Inv c) (hs : a.state = .seekHeader) :
    (seekStep b a).Keeps c := by
  unfold seekStep
  split
  · exact Asm.Inv.headerTest c _ hs (by simp; omega) h.ln_le h.tn_le h.pbuf_wf h.pbuf_below
  · exact Asm.Inv.headerTest c _ hs h.wn_le h.ln_le h.tn_le h.pbuf_wf h.pbuf_below

theorem lengthStep_keeps (c : Instance) (b : Byte) (a : Asm) (h : a.Inv c) (hs : a.state = .readLength) :
    (lengthStep c b a).Keeps c := by
  unfold lengthStep
  dsimp only
  split
  · exact Asm.Inv.of_idle c _ (.inr hs) h.wn_le (Nat.le_refl 1) h.tn_le (fun hq => by simp [hs] at hq) h.pbuf_wf
      h.pbuf_below
  · split
    · exact Asm.Inv.of_idle c _ (.inl rfl) (Nat.zero_le _) (Nat.zero_le _) h.tn_le (fun _ hw => (nomatch hw))
        h.pbuf_wf h.pbuf_below
    · rename_i hl
      refine ⟨h.wn_le, Nat.zero_le _, Nat.zero_le _, fun _ => Nat.le_of_not_lt hl, ?_, ?_, ?_, h.pbuf_wf,
        h.pbuf_below, ?_⟩
      · intro hq
        by_cases h0 : le16 [a.lb, b] 0 = 0
        · simp [acceptLength, h0] at hq
        · have : 0 < (le16 [a.lb, b] 0).toNat := Nat.pos_of_ne_zero fun hz => h0 (BitVec.eq_of_toNat_eq hz)
          simpa [acceptLength] using this
      · intro hq
        by_cases h0 : le16 [a.lb, b] 0 = 0
        · simp [acceptLength, h0]
        · simp [acceptLength] at hq; exact absurd hq h0
      · intro hq
        simp only [acceptLength] at hq; split at hq <;> cases hq
      · intro _ i hi; simp [acceptLength] at hi

theorem payloadStep_keeps (c : Instance) (b : Byte) (a : Asm) (hc : c.wf = true) (h : a.Inv c)
    (hs : a.state = .readPayload) : (payloadStep c b a).Keeps c := by
  have hlt := h.plen_lt hs
  have hle := h.len_le (.inl hs)
  have hcap : c.lmax ≤ c.cap := Nat.sub_le _ _
  have hcap' : c.cap ≤ 65535 := by simp [Instance.wf] at hc; exact hc.2.1
  have hp1 : (a.plen + 1).toNat = a.plen.toNat + 1 := by
    have : a.plen.toNat + 1 < 65536 := by omega
    simp [BitVec.toNat_add, Nat.mod_eq_of_lt this]
  have hwrit : ∀ i < a.plen.toNat + 1, (Memory.read (a.pbuf.write a.plen.toNat b) i).isSome := by
    intro i hi
    by_cases he : i = a.plen.toNat
    · rw [he, Memory.read_write_same]; rfl
    · rw [Memory.read_write_other _ _ _ _ he]; exact h.pbuf_written (.inl hs) i (by omega)
  have hwf := Memory.write_wf a.pbuf a.plen.toNat b h.pbuf_wf
  have hbel := Memory.write_below a.pbuf a.plen.toNat c.cap b h.pbuf_below (by omega)
  unfold payloadStep
  rw [if_neg (by omega)]
  dsimp only [ByteOut.Keeps]
  split
  · rename_i he
    refine ⟨h.wn_le, h.ln_le, Nat.zero_le _, fun _ => hle, fun hq => (nomatch hq), fun _ => he,
      fun hq => (nomatch hq), hwf, hbel, fun _ i hi => hwrit i (by rw [← hp1]; exact hi)⟩
  · rename_i hne
    refine ⟨h.wn_le, h.ln_le, h.tn_le, fun _ => hle, fun _ => ?_, fun hq => absurd hq (by simp [hs]),
      fun hq => absurd hq (by simp [hs]), hwf, hbel, fun _ i hi => hwrit i (by rw [← hp1]; exact hi)⟩
    show (a.plen + 1).toNat < a.len.toNat
    rcases Nat.lt_or_ge (a.plen + 1).toNat a.len.toNat with hlt' | hge
    · exact hlt'
    · exact absurd (BitVec.eq_of_toNat_eq (by omega)) hne

theorem tailStep_keeps (c : Instance) (b : Byte) (a : Asm) (h : a.Inv c) (hs : a.state = .readTail) :
    (tailStep b a).Keeps c := by
  unfold tailStep
  dsimp only
  split
  · rename_i ht
    exact ⟨h.wn_le, h.ln_le, by simp; omega, h.len_le, h.plen_lt, h.plen_eq, h.no_header, h.pbuf_wf, h.pbuf_below,
      h.pbuf_written⟩
  · split
    · have hsome := (Memory.readFirst_isSome a.pbuf a.plen.toNat).mpr (h.pbuf_written (.inr hs))
      cases hp : a.pbuf.readFirst a.plen.toNat with
      | none => simp [hp] at hsome
      | some p =>
        exact ⟨Asm.Inv.of_idle c _ (.inl rfl) (Nat.zero_le _) h.ln_le (Nat.zero_le _) (fun _ hw => (nomatch hw))
          h.pbuf_wf h.pbuf_below, rfl, rfl⟩
    · exact Asm.Inv.headerTest c _ rfl (Nat.le_refl 4) h.ln_le (Nat.zero_le _) h.pbuf_wf h.pbuf_below

/-- A byte step keeps the assembler's invariant and does not fault under it. -/
theorem byteStep_keeps (c : Instance) (b : Byte) (a : Asm) (hc : c.wf = true) (h : a.Inv c) :
    (byteStep c b a).Keeps c := by
  unfold byteStep
  split
  · exact seekStep_keeps c b a h ‹_›
  · exact lengthStep_keeps c b a h ‹_›
  · exact payloadStep_keeps c b a hc h ‹_›
  · exact tailStep_keeps c b a h ‹_›

/-- The only errors of a byte step are LENGTH_OVERFLOW and TAIL_MISMATCH (60_exceptions.md R364). -/
theorem byteStep_error (c : Instance) (b : Byte) (a a' : Asm) (e : Event) (h : byteStep c b a = .error e a') :
    e = .lengthOverflow ∨ e = .tailMismatch := by
  unfold byteStep at h
  split at h
  · cases h
  · unfold lengthStep at h
    dsimp only at h
    split at h
    · cases h
    · split at h
      · cases h; exact .inl rfl
      · cases h
  · unfold payloadStep at h
    split at h <;> cases h
  · unfold tailStep at h
    dsimp only at h
    split at h
    · cases h
    · split at h
      · split at h <;> cases h
      · cases h; exact .inr rfl

/-- A byte step completes a frame only in READ_TAIL, of the frame's own family, with the payload that `PBUF` holds (R170). -/
theorem byteStep_complete (c : Instance) (b : Byte) (a a' : Asm) (k : FrameKind) (p : List Byte)
    (h : byteStep c b a = .complete k p a') :
    a.state = .readTail ∧ k = a.kind ∧ a.pbuf.readFirst a.plen.toNat = some p := by
  unfold byteStep at h
  split at h
  · cases h
  · unfold lengthStep at h
    dsimp only at h
    repeat' split at h
    all_goals cases h
  · unfold payloadStep at h
    split at h <;> cases h
  · rename_i hs
    unfold tailStep at h
    dsimp only at h
    repeat' split at h
    all_goals cases h
    exact ⟨hs, rfl, ‹_›⟩

/-! ### The assembler on a byte sequence -/

/-- The frames and the end state over a concatenation are those over its parts in turn (R174). -/
theorem assemble_append (c : Instance) (u v : List Byte) (a : Asm) : assemble c (u ++ v) a =
    match assemble c u a with
    | .done fs a' =>
      (match assemble c v a' with
       | .done gs a'' => .done (fs ++ gs) a''
       | .fault f => .fault f)
    | .fault f => .fault f := by
  induction u generalizing a with
  | nil => simp only [List.nil_append, assemble]; cases assemble c v a <;> rfl
  | cons b u ih =>
    simp only [List.cons_append, assemble]
    cases byteStep c b a with
    | none a => exact ih a
    | error e a => exact ih _
    | fault f => rfl
    | complete k p a =>
      simp only [ih]
      cases assemble c u a with
      | fault f => rfl
      | done fs a' => simp only; cases assemble c v a' <;> rfl

end Sys2Proof.Machine
end

