-- ==== Sys2Proof/Laws/PerInstr.lean ====
section
/-! SUPPORT. Statements about every instruction as syntax, one lemma per constructor. -/

namespace Sys2Proof.Laws.FrameLength

open Sys2Proof

/-- The size of an instruction's code (30_encoding.md R143, R145): a well-formed frame is 10 to `10 + LMAX` bytes long, a host call's
operation code is not FEED's, and a transport step is as long as what it appends. -/
def Statement (i : Instr) : Prop :=
  ∀ x : DecodeCtx, i.wf x = true →
    match encode i with
    | .frame bs => 10 ≤ bs.length ∧ bs.length ≤ 10 + x.lmax
    | .call k => (k.w.extractLsb' 4 3).toNat = 2 ∨ k.w.extractLsb' 0 4 = 0
    | .transport bs => i = .feed bs

/-- A payload that fits gives a frame within the bounds of R143. -/
theorem frame_bounds (x : DecodeCtx) (k : FrameKind) (p : List Byte) (h : fits x p = true) :
    10 ≤ (frameBytes k p).length ∧ (frameBytes k p).length ≤ 10 + x.lmax := by
  rw [frameBytes_length]; simp [fits] at h; omega

theorem fits_of_docRow {x : DecodeCtx} {b : Byte} {p : List Byte} (h : docRow x b p = true) : fits x p = true := by
  simp only [docRow, Bool.and_eq_true] at h; exact h.1.1

theorem fits_of_vendorRow {x : DecodeCtx} {b : Byte} {p : List Byte} (h : vendorRow x b p = true) : fits x p = true := by
  simp only [vendorRow, Bool.and_eq_true] at h; exact h.1.1.1

theorem fits_of_ackRow {x : DecodeCtx} {c : Cmd} {p : List Byte} (h : ackRow x c p = true) : fits x p = true := by
  simp only [ackRow, Bool.and_eq_true] at h; exact h.1.1.1

theorem dataBasic (p : List Byte) : Statement (.dataBasic p) := fun x h => frame_bounds x .data p (fits_of_docRow h)
theorem dataEnhanced (p : List Byte) : Statement (.dataEnhanced p) := fun x h => by
  simp only [Instr.wf, Bool.and_eq_true] at h; exact frame_bounds x .data p (fits_of_docRow h.1)
theorem dataBasicVendor (p : List Byte) : Statement (.dataBasicVendor p) := fun x h => frame_bounds x .data p (fits_of_vendorRow h)
theorem dataEnhancedVendor (p : List Byte) : Statement (.dataEnhancedVendor p) := fun x h => by
  simp only [Instr.wf, Bool.and_eq_true] at h; exact frame_bounds x .data p (fits_of_vendorRow h.1)
theorem dataBadMarkerVendor (p : List Byte) : Statement (.dataBadMarkerVendor p) := fun x h => by
  simp only [Instr.wf, Bool.and_eq_true] at h; exact frame_bounds x .data p h.1.1.1
theorem dataReservedSubtype (p : List Byte) : Statement (.dataReservedSubtype p) := fun x h => by
  simp only [Instr.wf, Bool.and_eq_true] at h; exact frame_bounds x .data p h.1
theorem ackEnterCfg (p : List Byte) : Statement (.ackEnterCfg p) := fun x h => frame_bounds x .ack p (fits_of_ackRow h)
theorem ackExitCfg (p : List Byte) : Statement (.ackExitCfg p) := fun x h => frame_bounds x .ack p (fits_of_ackRow h)
theorem ackEnhOn (p : List Byte) : Statement (.ackEnhOn p) := fun x h => frame_bounds x .ack p (fits_of_ackRow h)
theorem ackEnhOff (p : List Byte) : Statement (.ackEnhOff p) := fun x h => frame_bounds x .ack p (fits_of_ackRow h)
theorem ackReadMac (p : List Byte) : Statement (.ackReadMac p) := fun x h => frame_bounds x .ack p (fits_of_ackRow h)
theorem ackReadFw (p : List Byte) : Statement (.ackReadFw p) := fun x h => frame_bounds x .ack p (fits_of_ackRow h)
theorem ackReadRes (p : List Byte) : Statement (.ackReadRes p) := fun x h => frame_bounds x .ack p (fits_of_ackRow h)
theorem ackSetRes (p : List Byte) : Statement (.ackSetRes p) := fun x h => frame_bounds x .ack p (fits_of_ackRow h)
theorem ackReadParams (p : List Byte) : Statement (.ackReadParams p) := fun x h => frame_bounds x .ack p (fits_of_ackRow h)
theorem ackSetGateThr (p : List Byte) : Statement (.ackSetGateThr p) := fun x h => frame_bounds x .ack p (fits_of_ackRow h)
theorem ackSetMaxgateNoone (p : List Byte) : Statement (.ackSetMaxgateNoone p) := fun x h => frame_bounds x .ack p (fits_of_ackRow h)
theorem ackFactoryReset (p : List Byte) : Statement (.ackFactoryReset p) := fun x h => frame_bounds x .ack p (fits_of_ackRow h)
theorem ackReboot (p : List Byte) : Statement (.ackReboot p) := fun x h => frame_bounds x .ack p (fits_of_ackRow h)
theorem ackBtOn (p : List Byte) : Statement (.ackBtOn p) := fun x h => frame_bounds x .ack p (fits_of_ackRow h)
theorem ackBtOff (p : List Byte) : Statement (.ackBtOff p) := fun x h => frame_bounds x .ack p (fits_of_ackRow h)
theorem ackUnsolicited (p : List Byte) : Statement (.ackUnsolicited p) := fun x h => by
  simp only [Instr.wf, Bool.and_eq_true] at h; exact frame_bounds x .ack p h.1
theorem txEnterCfg : Statement .txEnterCfg := fun _ _ => .inl rfl
theorem txExitCfg : Statement .txExitCfg := fun _ _ => .inl rfl
theorem txEnhOn : Statement .txEnhOn := fun _ _ => .inl rfl
theorem txEnhOff : Statement .txEnhOff := fun _ _ => .inl rfl
theorem txReadMac : Statement .txReadMac := fun _ _ => .inl rfl
theorem txReadFw : Statement .txReadFw := fun _ _ => .inl rfl
theorem txReadRes : Statement .txReadRes := fun _ _ => .inl rfl
theorem txSetRes (r : Word16) : Statement (.txSetRes r) := fun _ _ =>
  .inl (show (((2 : BitVec 3) ++ Cmd.setRes.code).extractLsb' 4 3).toNat = 2 by decide)
theorem txReadParams : Statement .txReadParams := fun _ _ => .inl rfl
theorem txSetGateThr (gate mov stat : Word32) : Statement (.txSetGateThr gate mov stat) := fun _ _ =>
  .inl (show (((2 : BitVec 3) ++ Cmd.setGateThr.code).extractLsb' 4 3).toNat = 2 by decide)
theorem txSetMaxgateNoone (mm ms t : Word32) : Statement (.txSetMaxgateNoone mm ms t) := fun _ _ =>
  .inl (show (((2 : BitVec 3) ++ Cmd.setMaxgateNoone.code).extractLsb' 4 3).toNat = 2 by decide)
theorem txFactoryReset : Statement .txFactoryReset := fun _ _ => .inl rfl
theorem txReboot : Statement .txReboot := fun _ _ => .inl rfl
theorem txBtOn : Statement .txBtOn := fun _ _ => .inl rfl
theorem txBtOff : Statement .txBtOff := fun _ _ => .inl rfl
theorem txReserved15 : Statement .txReserved15 := fun _ _ => .inl rfl
theorem reset : Statement .reset := fun _ _ => .inr rfl
theorem check : Statement .check := fun _ _ => .inr rfl
theorem timeout : Statement .timeout := fun _ _ => .inr rfl
theorem rd (i g : Word32) : Statement (.rd i g) := fun _ _ =>
  .inr (show ((4 : BitVec 3) ++ (0 : BitVec 4)).extractLsb' 0 4 = 0 by decide)
theorem reservedOp5 : Statement .reservedOp5 := fun _ _ => .inr rfl
theorem reservedOp6 : Statement .reservedOp6 := fun _ _ => .inr rfl
theorem reservedOp7 : Statement .reservedOp7 := fun _ _ => .inr rfl
theorem feed (bs : List Byte) : Statement (.feed bs) := fun _ _ => rfl

end Sys2Proof.Laws.FrameLength
end

