-- ==== Sys2Proof/Laws/Step.lean ====
section
/-! SUPPORT. What a step can do, said once: the round of a CHECK, the turns, and the meaning of whatever instruction is fetched. -/

namespace Sys2Proof.Machine

open Sys2Proof

/-- One round of CHECK's loop (44_host_ops.md R302): the FIFO is empty, or the byte taken gives one of the byte step's
answers. -/
theorem engineTurn_cases (s : State) :
    (s.rx = [] ∧ engineTurn s = .quiet (s.endCheck .fail)) ∨
    ∃ b rest, s.rx = b :: rest ∧
      ((∃ a, byteStep s.inst b s.asm = .none a ∧ engineTurn s = .quiet { s with rx := rest, asm := a }) ∨
       (∃ e a, byteStep s.inst b s.asm = .error e a ∧
          engineTurn s = .quiet ({ s with rx := rest, asm := a }.takeError e)) ∨
       (∃ k p a, byteStep s.inst b s.asm = .complete k p a ∧
          engineTurn s = .instr (selectRow s.ctx k p) { s with rx := rest, asm := a }) ∨
       (∃ f, byteStep s.inst b s.asm = .fault f ∧ engineTurn s = .fault f)) := by
  unfold engineTurn
  cases hr : s.rx with
  | nil => exact .inl ⟨rfl, rfl⟩
  | cons b rest =>
    refine .inr ⟨b, rest, rfl, ?_⟩
    cases hb : byteStep s.inst b s.asm with
    | none a => exact .inl ⟨a, rfl, by simp only [hb]⟩
    | error e a => exact .inr (.inl ⟨e, a, rfl, by simp only [hb]⟩)
    | complete k p a => exact .inr (.inr (.inl ⟨k, p, a, rfl, by simp only [hb]⟩))
    | fault f => exact .inr (.inr (.inr ⟨f, rfl, by simp only [hb]⟩))

/-- The state a turn starts from: the turn taken (`rest` are the turns left) and the event port cleared. -/
def State.turned (s : State) (rest : List Turn) : State := { s with turns := rest, events := [] }

/-- What a turn fetches. -/
theorem fetch_cases (s : State) :
    (s.inst.wf = false ∧ fetch s = .refuse .invalidInstance) ∨
    (s.inst.wf = true ∧
      ((∃ rest, s.checking = true ∧ (s.turns = .engine :: rest ∨ s.turns = rest ∧ (rest = [] ∨ rest.head? = some .await)) ∧
          fetch s = engineTurn (s.turned rest)) ∨
       (∃ rest, s.checking = false ∧ (s.turns = .engine :: rest ∨ s.turns = .await :: rest ∨ s.turns = [] ∧ rest = []) ∧
          fetch s = .quiet (s.turned rest)) ∨
       (∃ c rest, s.turns = .host c :: rest ∧ s.checking = true ∧ fetch s = .refuse .overlappingCall) ∨
       (∃ c rest, s.turns = .host c :: rest ∧ s.checking = false ∧ fetch s = .instr (decodeCall c) (s.turned rest)) ∨
       (∃ bs rest, s.turns = .transport bs :: rest ∧ fetch s = .instr (.feed bs) (s.turned rest)) ∨
       (∃ n rest, s.turns = .drain n :: rest ∧ fetch s = .quiet ((s.turned rest).txDrain n)) ∨
       (∃ t rest, s.turns = .clock t :: rest ∧ fetch s = .quiet { s.turned rest with timeNow := t }))) := by
  cases hw : s.inst.wf with
  | false => exact .inl ⟨rfl, by simp [fetch, hw]⟩
  | true =>
    refine .inr ⟨rfl, ?_⟩
    cases ht : s.turns with
    | nil =>
      cases hc : s.checking with
      | true =>
        exact .inl ⟨[], rfl, .inr ⟨rfl, .inl rfl⟩, by simp [fetch, hw, ht, hc, State.turned]⟩
      | false => exact .inr (.inl ⟨[], rfl, .inr (.inr ⟨rfl, rfl⟩), by simp [fetch, hw, ht, hc, State.turned]⟩)
    | cons u rest =>
      cases u with
      | host c =>
        cases hc : s.checking with
        | true => exact .inr (.inr (.inl ⟨c, rest, rfl, rfl, by simp [fetch, hw, ht, hc, hostTurn]⟩))
        | false =>
          exact .inr (.inr (.inr (.inl ⟨c, rest, rfl, rfl, by simp [fetch, hw, ht, hc, hostTurn, State.turned]⟩)))
      | transport bs => exact .inr (.inr (.inr (.inr (.inl ⟨bs, rest, rfl, by simp [fetch, hw, ht, State.turned]⟩))))
      | drain n =>
        exact .inr (.inr (.inr (.inr (.inr (.inl ⟨n, rest, rfl, by simp [fetch, hw, ht, State.turned]⟩)))))
      | clock t =>
        exact .inr (.inr (.inr (.inr (.inr (.inr ⟨t, rest, rfl, by simp [fetch, hw, ht, State.turned]⟩)))))
      | engine =>
        cases hc : s.checking with
        | true => exact .inl ⟨rest, rfl, .inl rfl, by simp [fetch, hw, ht, hc, State.turned]⟩
        | false => exact .inr (.inl ⟨rest, rfl, .inl rfl, by simp [fetch, hw, ht, hc, State.turned]⟩)
      | await =>
        cases hc : s.checking with
        | true =>
          exact .inl ⟨.await :: rest, rfl, .inr ⟨rfl, .inr rfl⟩, by simp [fetch, hw, ht, hc, State.turned]⟩
        | false => exact .inr (.inl ⟨rest, rfl, .inr (.inl rfl), by simp [fetch, hw, ht, hc, State.turned]⟩)

/-- A step is what its fetch says. -/
theorem step_eq (s : State) : step s = match fetch s with
    | .quiet t => .next t
    | .instr i t => exec i t
    | .fault f => .fault f
    | .refuse r => .refused r := rfl

/-! ### Runs -/

@[simp] theorem steps_zero (s : State) : steps 0 s = .next s := rfl

/-- A run takes its first step and goes on from there. -/
theorem steps_succ (n : Nat) (s : State) : steps (n + 1) s = match step s with
    | .next t => steps n t
    | .fault f => .fault f
    | .refused r => .refused r := rfl

/-- A run whose first step goes on. -/
theorem steps_of_next (n : Nat) (s t : State) (h : step s = .next t) : steps (n + 1) s = steps n t := by
  rw [steps_succ, h]

/-- A run goes on from where a shorter one ended. -/
theorem steps_add (m n : Nat) (s t : State) (h : steps m s = .next t) : steps (m + n) s = steps n t := by
  induction m generalizing s with
  | zero => cases h; rw [Nat.zero_add]
  | succ m ih =>
    rw [Nat.succ_add, steps_succ]
    rw [steps_succ] at h
    cases hs : step s with
    | next u => rw [hs] at h; exact ih u h
    | fault f => rw [hs] at h; cases h
    | refused r => rw [hs] at h; cases h

/-- It is the run of the core. -/
theorem steps_eq_run (n : Nat) (s : State) : core.run n s = steps n s := by
  induction n generalizing s with
  | zero => rfl
  | succ n ih =>
    rw [steps_succ]
    cases h : step s with
    | next t =>
      have h' : core.step s = .next t := h
      simp only [Host.Core.run, h']; exact ih t
    | fault f =>
      have h' : core.step s = .fault f := h
      simp only [Host.Core.run, h']; rfl
    | refused r =>
      have h' : core.step s = .refused r := h
      simp only [Host.Core.run, h']; rfl

end Sys2Proof.Machine
end

