-- ==== Sys2Proof/Tests/Slice0.lean ====
section
/-! SUPPORT. The model's own tests. Expected values come from 95_test_vectors.md and from the examples of the rules named in each
docstring. First the ill-formed terms that WellFormed refuses, then decoding, then one step or one meaning at a time, then a witness
for each statement that has hypotheses. -/

namespace Sys2Proof.Machine.Tests

open Sys2Proof Sys2Proof.Machine

/-! ### Helpers -/

/-- A field of the next state, `none` where the machine stops. -/
def after {α : Type} (o : Host.Outcome State Fault Refusal) (f : State → α) : Option α :=
  match o with
  | .next t => some (f t)
  | .fault _ => none
  | .refused _ => none

/-- The refusal, if there is one. -/
def refusal (o : Host.Outcome State Fault Refusal) : Option Refusal :=
  match o with
  | .next _ => none
  | .fault _ => none
  | .refused r => some r

def docCtx : DecodeCtx where
  profile := .doc
  subBasic := 0x02
  subEnh := 0x01
  lmax := 64
  pend := none

def vendorCtx : DecodeCtx := { docCtx with profile := .vendor }

def vendorInstance : Instance := { Instance.standard with profile := .vendor }

/-- A CHECK is in progress and nothing is pending. -/
def checkingS : State := { State.reset with checking := true, timeNow := 77 }

/-- A CHECK is in progress in config mode while `c` is pending. -/
def pendingS (c : Cmd) : State := { checkingS with inCfg := true, pendValid := true, pendCmd := c }

/-- A CHECK is in progress and the READ_PARAMS group is known with this `RANGE`. -/
def rangeS (r : Byte) : State :=
  { checkingS with cfg := { DeviceConfig.unknown with paramValid := true, maxMov := r, range := r } }

/-- Config mode, nothing pending, no CHECK. -/
def configS : State := { State.reset with inCfg := true }

/-- Payload of `DF_S2` (V-S2). -/
def dfS2 : List Byte := [0x02, 0x01, 0x96, 0x00, 0x50, 0x00, 0x00, 0x00, 0x00, 0x00]

/-- Payload of the DOC enhanced frame of D-3. -/
def dfD3 : List Byte := [0x01, 0x03, 0x64, 0x00, 0x32, 0xC8, 0x00, 0x28, 0x64, 0x00, 0x0A, 0x0B, 0x0C, 0x14, 0x15, 0x16]

/-- Payload of V-1. -/
def dfV1 : List Byte := [0x02, 0xAA, 0x02, 0x00, 0x00, 0x00, 0x3B, 0x00, 0x3C, 0x00, 0x00, 0x55, 0x00]

/-- Payload of V-2. -/
def dfV2 : List Byte :=
  [0x01, 0xAA, 0x01, 0x0A, 0x00, 0x05, 0x00, 0x00, 0x00, 0x0A, 0x00, 0x01, 0x01, 0x11, 0x12, 0x21, 0x22]

/-- Payload of `AK_ENTER`. -/
def akEnter : List Byte := [0xFF, 0x00, 0x00, 0x00, 0x01, 0x00, 0x40, 0x00]

/-- Payload of `AK_PAR(08, 06, 3)`. -/
def akPar : List Byte :=
  [0x61, 0x00, 0x00, 0x00, 0xAA, 0x08, 0x08, 0x06, 0x32, 0x32, 0x28, 0x1E, 0x14, 0x0F, 0x0F, 0x0F, 0x0F, 0x00, 0x00, 0x28,
    0x1E, 0x14, 0x0F, 0x0F, 0x0F, 0x0F, 0x03, 0x00]

/-- An Ack payload of a command id and a success status. -/
def akOk (id : Byte) : List Byte := [id, 0x00, 0x00, 0x00]

/-! ### WellFormed refuses each ill-formed term -/

/-- R143: the payload is longer than `LMAX`. -/
theorem test_wf_too_long : Instr.wf docCtx (.dataBasic (dfS2 ++ List.replicate 55 0)) = false := by decide

/-- R102: the length does not fit two bytes. -/
theorem test_wf_no_length (p : List Byte) (h : p.length = 65536) :
    Instr.wf { docCtx with lmax := 70000 } (.dataReservedSubtype p) = false := by
  simp [Instr.wf, fits, h]

/-- R204: a DOC row under VENDOR, and with the other sub-type. -/
theorem test_wf_doc_row : Instr.wf vendorCtx (.dataBasic dfS2) = false ∧ Instr.wf docCtx (.dataEnhanced dfS2) = false := by
  decide

/-- R233: a VENDOR row under DOC, with the other sub-type, and without the head marker. -/
theorem test_wf_vendor_row : Instr.wf docCtx (.dataBasicVendor dfV1) = false ∧
    Instr.wf vendorCtx (.dataEnhancedVendor dfV1) = false ∧ Instr.wf vendorCtx (.dataBasicVendor [0x02, 0xAB]) = false := by
  decide

/-- R7: with equal sub-types the enhanced rows are never reached. -/
theorem test_wf_equal_subtypes : Instr.wf { docCtx with subEnh := 0x02 } (.dataEnhanced dfS2) = false ∧
    Instr.wf { vendorCtx with subEnh := 0x02 } (.dataEnhancedVendor dfV1) = false := by decide

/-- R233: BAD_MARKER with the marker present, with an unknown sub-type, and under DOC. -/
theorem test_wf_bad_marker : Instr.wf vendorCtx (.dataBadMarkerVendor dfV1) = false ∧
    Instr.wf vendorCtx (.dataBadMarkerVendor [0x03, 0x00]) = false ∧
    Instr.wf docCtx (.dataBadMarkerVendor [0x02, 0x00]) = false := by decide

/-- R202: RESERVED_SUBTYPE with a known sub-type. -/
theorem test_wf_reserved : Instr.wf docCtx (.dataReservedSubtype dfS2) = false := by decide

/-- R205, R207: an Ack row without its status word, without its request, with another command pending, with another id. -/
theorem test_wf_ack_row : Instr.wf { docCtx with pend := some .enterCfg } (.ackEnterCfg [0xFF, 0x00, 0x00]) = false ∧
    Instr.wf docCtx (.ackEnterCfg akEnter) = false ∧
    Instr.wf { docCtx with pend := some .exitCfg } (.ackEnterCfg akEnter) = false ∧
    Instr.wf { docCtx with pend := some .enterCfg } (.ackEnterCfg (akOk 0xFE)) = false := by decide

/-- R208: an unsolicited row for the very Ack that is awaited. -/
theorem test_wf_unsolicited : Instr.wf { docCtx with pend := some .enterCfg } (.ackUnsolicited akEnter) = false := by decide

/-! ### Decoding -/

/-- The bytes of V-W1, V-1, V-2, V-4 and K-1, and of D-3's frame. -/
theorem test_decode_data :
    decode docCtx (.frame ([0xF4, 0xF3, 0xF2, 0xF1, 0x0A, 0x00] ++ dfS2 ++ [0xF8, 0xF7, 0xF6, 0xF5])) = .ok (.dataBasic dfS2) ∧
    decode docCtx (.frame ([0xF4, 0xF3, 0xF2, 0xF1, 0x10, 0x00] ++ dfD3 ++ [0xF8, 0xF7, 0xF6, 0xF5]))
      = .ok (.dataEnhanced dfD3) ∧
    decode vendorCtx (.frame ([0xF4, 0xF3, 0xF2, 0xF1, 0x0D, 0x00] ++ dfV1 ++ [0xF8, 0xF7, 0xF6, 0xF5]))
      = .ok (.dataBasicVendor dfV1) ∧
    decode vendorCtx (.frame ([0xF4, 0xF3, 0xF2, 0xF1, 0x11, 0x00] ++ dfV2 ++ [0xF8, 0xF7, 0xF6, 0xF5]))
      = .ok (.dataEnhancedVendor dfV2) ∧
    decode vendorCtx (.frame [0xF4, 0xF3, 0xF2, 0xF1, 0x02, 0x00, 0x02, 0xAB, 0xF8, 0xF7, 0xF6, 0xF5])
      = .ok (.dataBadMarkerVendor [0x02, 0xAB]) ∧
    decode docCtx (.frame [0xF4, 0xF3, 0xF2, 0xF1, 0x02, 0x00, 0x03, 0x01, 0xF8, 0xF7, 0xF6, 0xF5])
      = .ok (.dataReservedSubtype [0x03, 0x01]) := by decide

/-- The frame of an Ack with id `id` and status 0 decodes to `i` while `c` is pending under DOC, and with id bit 8 set under VENDOR. -/
def ackDecodes (c : Cmd) (id : Byte) (i : List Byte → Instr) : Bool :=
  decide (decode { docCtx with pend := some c }
      (.frame [0xFD, 0xFC, 0xFB, 0xFA, 0x04, 0x00, id, 0x00, 0x00, 0x00, 0x04, 0x03, 0x02, 0x01])
      = .ok (i [id, 0x00, 0x00, 0x00]) ∧
    decode { vendorCtx with pend := some c }
      (.frame [0xFD, 0xFC, 0xFB, 0xFA, 0x04, 0x00, id, 0x01, 0x00, 0x00, 0x04, 0x03, 0x02, 0x01])
      = .ok (i [id, 0x01, 0x00, 0x00]))

/-- The ids of R120, the frames of K-11 to K-27 without return data, and R112. -/
theorem test_decode_ack :
    ackDecodes .enterCfg 0xFF .ackEnterCfg ∧ ackDecodes .exitCfg 0xFE .ackExitCfg ∧ ackDecodes .enhOn 0x62 .ackEnhOn ∧
    ackDecodes .enhOff 0x63 .ackEnhOff ∧ ackDecodes .readMac 0xA5 .ackReadMac ∧ ackDecodes .readFw 0xA0 .ackReadFw ∧
    ackDecodes .readRes 0xAB .ackReadRes ∧ ackDecodes .setRes 0xAA .ackSetRes ∧
    ackDecodes .readParams 0x61 .ackReadParams ∧ ackDecodes .setGateThr 0x64 .ackSetGateThr ∧
    ackDecodes .setMaxgateNoone 0x60 .ackSetMaxgateNoone ∧ ackDecodes .factoryReset 0xA2 .ackFactoryReset ∧
    ackDecodes .reboot 0xA3 .ackReboot ∧ ackDecodes .btOn 0xA4 .ackBtOn ∧ ackDecodes .btOff 0xA4 .ackBtOff := by decide

/-- V-9: under VENDOR the id without bit 8 matches nothing; V-S1b: nor does any id with nothing pending. -/
theorem test_decode_unsolicited :
    decode { vendorCtx with pend := some .enterCfg }
      (.frame ([0xFD, 0xFC, 0xFB, 0xFA, 0x08, 0x00] ++ akEnter ++ [0x04, 0x03, 0x02, 0x01])) = .ok (.ackUnsolicited akEnter) ∧
    decode docCtx (.frame ([0xFD, 0xFC, 0xFB, 0xFA, 0x08, 0x00] ++ akEnter ++ [0x04, 0x03, 0x02, 0x01]))
      = .ok (.ackUnsolicited akEnter) := by decide

/-- The words of R145 for the commands of R120. -/
theorem test_decode_tx :
    decodeCall { w := 0b0100000 } = .txEnterCfg ∧ decodeCall { w := 0b0100001 } = .txExitCfg ∧
    decodeCall { w := 0b0100010 } = .txEnhOn ∧ decodeCall { w := 0b0100011 } = .txEnhOff ∧
    decodeCall { w := 0b0100100 } = .txReadMac ∧ decodeCall { w := 0b0100101 } = .txReadFw ∧
    decodeCall { w := 0b0100110 } = .txReadRes ∧ decodeCall { w := 0b0100111, a := 1 } = .txSetRes 1 ∧
    decodeCall { w := 0b0101000 } = .txReadParams ∧
    decodeCall { w := 0b0101001, a := 0xFFFF, b := 50, c := 40 } = .txSetGateThr 0xFFFF 50 40 ∧
    decodeCall { w := 0b0101010, a := 8, b := 7, c := 3 } = .txSetMaxgateNoone 8 7 3 ∧
    decodeCall { w := 0b0101011 } = .txFactoryReset ∧ decodeCall { w := 0b0101100 } = .txReboot ∧
    decodeCall { w := 0b0101101 } = .txBtOn ∧ decodeCall { w := 0b0101110 } = .txBtOff ∧
    decodeCall { w := 0b0101111 } = .txReserved15 := by decide

/-- The other words of R145 and R300, with the unread bits set, and FEED. -/
theorem test_decode_host :
    decodeCall { w := 0b0001111 } = .reset ∧ decodeCall { w := 0b0010101 } = .check ∧
    decodeCall { w := 0b0111010 } = .timeout ∧ decodeCall { w := 0b1000110, a := 0x19, b := 2 } = .rd 0x19 2 ∧
    decodeCall { w := 0b1010000 } = .reservedOp5 ∧ decodeCall { w := 0b1100000 } = .reservedOp6 ∧
    decodeCall { w := 0b1110000 } = .reservedOp7 ∧ decode docCtx (.transport [0xF4]) = .ok (.feed [0xF4]) := by decide

/-- R140: each rejected byte string is rejected by name: noise, `L > LMAX`, the other family's tail (A-8), and cut or extended
frames. -/
theorem test_decode_rejects :
    decode docCtx (.frame [0x11, 0x22, 0x33, 0x44, 0x55]) = .error .noHeader ∧
    decode docCtx (.frame ([0xF4, 0xF3, 0xF2, 0xF1, 0x41, 0x00] ++ dfS2)) = .error .lengthOverflow ∧
    decode docCtx (.frame ([0xF4, 0xF3, 0xF2, 0xF1, 0x0A, 0x00] ++ dfS2 ++ [0x04, 0x03, 0x02, 0x01])) = .error .tailMismatch ∧
    decode docCtx (.frame ([0xF4, 0xF3, 0xF2, 0xF1, 0x0A, 0x00] ++ dfS2 ++ [0xF8, 0xF7, 0xF6])) = .error .truncated ∧
    decode docCtx (.frame ([0xF4, 0xF3, 0xF2, 0xF1, 0x0A, 0x00] ++ dfS2 ++ [0xF8, 0xF7, 0xF6, 0xF5, 0x00]))
      = .error .trailing := by decide

/-- Table words (opcode_table.json) in both byte orders, and the host-operation words (assumption log 2). -/
theorem test_table_words :
    (decodeTableWord 48 0xF4F3F2F102AA).map encode = some (.frame (frameBytes .data (tablePayload 0x02 0xAA))) ∧
    decodeTableWord 48 0xF4F3F2F10100 = decodeTableWord 48 0x0001F1F2F3F4 ∧
    decodeTableWord 48 0xFDFCFBFA6200 = some (.ackEnhOn (tablePayload 0x62 0x00)) ∧
    decodeTableWord 8 0b0100101 = some .txReadFw ∧ decodeTableWord 7 0b1100000 = some .reservedOp6 ∧
    decodeTableWord 0 0 = some (.feed []) ∧ decodeTableWord 48 0 = none := by decide

/-- The step after `withFetchWord` runs the table word's instruction as the first one after reset. -/
theorem test_fetch_word :
    after (step (State.reset.withFetchWord 48 0xF4F3F2F10200)) (·.result) = some (some (.check .data)) ∧
    after (step (State.reset.withFetchWord 48 0xFDFCFBFAFF00)) (·.inCfg) = some true ∧
    after (step (State.reset.withFetchWord 8 0b0100000)) (·.result) = some (some (.tx .sent)) ∧
    refusal (step (State.reset.withFetchWord 8 0b1010000)) = some .reservedHostOp := by decide

/-! ### The assembler, one byte step at a time -/

/-- R161's example: `WN = 4`, `WIN = 00 F4 F3 F2`, byte `F1` opens a Data frame and empties the window. -/
theorem test_seek_match :
    after (step { checkingS with rx := [0xF1, 0x0A], asm := { Asm.clear with win := ⟨0x00, 0xF4, 0xF3, 0xF2⟩, wn := 4 } })
      (fun t => (t.asm.state, t.asm.kind, t.asm.wn, t.rx)) = some (.readLength, .data, 0, [0x0A]) := by decide

/-- R163's example: after `11 22 33 44`, byte `55` leaves the window `22 33 44 55`. -/
theorem test_seek_shift :
    after (step { checkingS with rx := [0x55], asm := { Asm.clear with win := ⟨0x11, 0x22, 0x33, 0x44⟩, wn := 4 } })
      (fun t => (t.asm.state, t.asm.win, t.asm.wn, t.checking)) = some (.seekHeader, ⟨0x22, 0x33, 0x44, 0x55⟩, 4, true) := by
  decide

/-- An assembler that has one length byte. -/
def lengthAsm (lb : Byte) : Asm := { Asm.clear with state := .readLength, lb := lb, ln := 1 }

/-- R165's example `00 01` is 256 and overflows at `LMAX = 64`; R166's boundary: `40 00` is accepted, `41 00` is not. -/
theorem test_length :
    after (step { checkingS with rx := [0x01], asm := lengthAsm 0x00 }) (fun t => (t.asm.len, t.asm.state, t.events))
      = some (256, .seekHeader, [.lengthOverflow]) ∧
    after (step { checkingS with rx := [0x00], asm := lengthAsm 0x40 }) (fun t => (t.asm.len, t.asm.state, t.events))
      = some (64, .readPayload, []) ∧
    after (step { checkingS with rx := [0x00], asm := lengthAsm 0x41 }) (fun t => (t.checking, t.asm.wn, t.events))
      = some (true, 0, [.lengthOverflow]) ∧
    after (step { checkingS with rx := [0x00], asm := lengthAsm 0x00 }) (fun t => (t.asm.state, t.events))
      = some (.readTail, []) := by decide

/-- R168's example: with `L = 1`, byte `02` gives `PBUF[0] = 02`, `PLEN = 1`, READ_TAIL. -/
theorem test_payload :
    after (step { checkingS with rx := [0x02], asm := { Asm.clear with state := .readPayload, len := 1 } })
      (fun t => (t.asm.pbuf, t.asm.plen, t.asm.state)) = some ([(0, 0x02)], 1, .readTail) := by decide

/-- An assembler that has read an empty Data payload and three tail bytes. -/
def tailAsm (a b c : Byte) : Asm := { Asm.clear with state := .readTail, twin := ⟨a, b, c, 0⟩, tn := 3 }

/-- R171's example: a Data header where the tail should be leaves READ_LENGTH with `KIND = DATA`; A-8: the other family's tail is a
mismatch and the CHECK goes on; A-13: the right tail completes an empty payload. -/
theorem test_tail :
    after (step { checkingS with rx := [0xF1], asm := tailAsm 0xF4 0xF3 0xF2 })
      (fun t => (t.asm.state, t.asm.kind, t.events, t.checking)) = some (.readLength, .data, [.tailMismatch], true) ∧
    after (step { checkingS with rx := [0x01], asm := tailAsm 0x04 0x03 0x02 })
      (fun t => (t.asm.state, t.asm.win, t.asm.wn, t.events)) = some (.seekHeader, ⟨4, 3, 2, 1⟩, 4, [.tailMismatch]) ∧
    after (step { checkingS with rx := [0xF5], asm := tailAsm 0xF8 0xF7 0xF6 })
      (fun t => (t.asm.state, t.asm.wn, t.events, t.result))
      = some (.seekHeader, 0, [.shortPayload], some (.check .fail)) := by decide

/-! ### Data frames -/

/-- D-1, D-12 and R108: `DF_S2` at time 77; D-9: 9 bytes are short. -/
theorem test_data_basic :
    after (exec (.dataBasic dfS2) checkingS) (·.snap)
      = some { Snapshot.empty with movPres := true, movDist := 150, movSig := 80, ts := 77 } ∧
    after (exec (.dataBasic (dfS2.take 9)) checkingS) (fun t => (t.result, t.events, t.snap))
      = some (some (.check .fail), [.shortPayload], .empty) := by decide

/-- D-3 (`RANGE = 2`) and D-4 (one byte short); D-2: with `PARAM_VALID = 0` the arrays are empty. -/
theorem test_data_enhanced :
    after (exec (.dataEnhanced dfD3) (rangeS 2)) (·.snap) = some
      { movPres := true, statPres := true, movDist := 100, movSig := 50, statDist := 200, statSig := 40, detDist := 100
        ts := 77, movSigs := [0x0A, 0x0B, 0x0C], statSigs := [0x14, 0x15, 0x16] } ∧
    after (exec (.dataEnhanced (dfD3.take 15)) (rangeS 2)) (·.events) = some [.shortPayload] ∧
    after (exec (.dataEnhanced dfD3) checkingS) (fun t => (t.snap.movSigs, t.snap.movDist)) = some ([], 100) := by decide

/-- D-11: `RANGE = 12` gives nine gates. -/
theorem test_data_enhanced_cap :
    after (exec (.dataEnhanced ([0x01, 0x01, 0x0A, 0x00, 0x14, 0x00, 0x00, 0x00, 0x0A, 0x00, 0x30, 0x31, 0x32, 0x33, 0x34, 0x35,
      0x36, 0x37, 0x38, 0x40, 0x41, 0x42, 0x43, 0x44, 0x45, 0x46, 0x47, 0x48])) (rangeS 12))
      (fun t => (t.snap.movSigs, t.snap.statSigs))
      = some ([0x30, 0x31, 0x32, 0x33, 0x34, 0x35, 0x36, 0x37, 0x38],
        [0x40, 0x41, 0x42, 0x43, 0x44, 0x45, 0x46, 0x47, 0x48]) := by decide

/-- V-1 and V-6. -/
theorem test_data_basic_vendor :
    after (exec (.dataBasicVendor dfV1) { checkingS with inst := vendorInstance }) (·.snap)
      = some { Snapshot.empty with statPres := true, statDist := 59, statSig := 60, ts := 77 } ∧
    after (exec (.dataBasicVendor (dfV1.take 10)) { checkingS with inst := vendorInstance }) (·.events)
      = some [.shortPayload] := by decide

/-- V-2 and V-7. -/
theorem test_data_enhanced_vendor :
    after (exec (.dataEnhancedVendor dfV2) { checkingS with inst := vendorInstance }) (·.snap)
      = some { Snapshot.empty with
          movPres := true, movDist := 10, movSig := 5, detDist := 10, ts := 77
          movSigs := [0x11, 0x12], statSigs := [0x21, 0x22] } ∧
    after (exec (.dataEnhancedVendor (dfV2.take 16)) { checkingS with inst := vendorInstance }) (·.events)
      = some [.shortPayload] := by decide

/-- V-4 and V-5. -/
theorem test_data_bad_marker :
    after (exec (.dataBadMarkerVendor [0x02, 0xAB]) checkingS) (fun t => (t.result, t.events))
      = some (some (.check .fail), [.badMarker]) ∧
    after (exec (.dataBadMarkerVendor [0x02]) checkingS) (·.events) = some [.shortPayload] := by decide

/-- K-1. -/
theorem test_data_reserved_subtype :
    after (exec (.dataReservedSubtype [0x03, 0x01]) checkingS) (fun t => (t.result, t.events))
      = some (some (.check .fail), [.unknownSubtype]) := by decide

/-- K-6: with `DATA_IN_CFG = BLOCK` in config mode `DF_S2` is blocked; R211: an unknown sub-type is decided before the block. -/
theorem test_data_blocked :
    after (exec (.dataBasic dfS2) { pendingS .readMac with inst := { Instance.standard with dataInCfg := .block } })
      (fun t => (t.events, t.snap)) = some ([.dataBlocked], .empty) ∧
    after (exec (.dataReservedSubtype [0x03]) { pendingS .readMac with inst := { Instance.standard with dataInCfg := .block } })
      (·.events) = some [.unknownSubtype] := by decide

/-! ### Ack frames -/

/-- K-11 from a state that is not in config mode, and K-29. -/
theorem test_ack_enter_cfg :
    after (exec (.ackEnterCfg akEnter) { pendingS .enterCfg with inCfg := false })
      (fun t => (t.result, t.inCfg, t.cfg.protoValid, t.cfg.protoVer, t.pendValid))
      = some (some (.check (.ack 0x00FF 0)), true, true, 1, false) ∧
    after (exec (.ackEnterCfg [0xFF, 0x00, 0x01, 0x00]) { pendingS .enterCfg with inCfg := false })
      (fun t => (t.result, t.inCfg, t.pendValid)) = some (some (.check (.ack 0x00FF 1)), false, false) := by decide

/-- K-12 and K-30. -/
theorem test_ack_exit_cfg :
    after (exec (.ackExitCfg (akOk 0xFE)) (pendingS .exitCfg)) (fun t => (t.inCfg, t.pendValid)) = some (false, false) ∧
    after (exec (.ackExitCfg [0xFE, 0x00, 0x01, 0x00]) (pendingS .exitCfg)) (fun t => (t.inCfg, t.cfgState))
      = some (true, .configuring) := by decide

/-- K-13 and K-14. -/
theorem test_ack_enh :
    after (exec (.ackEnhOn (akOk 0x62)) (pendingS .enhOn)) (fun t => (t.enhanced, t.result))
      = some (true, some (.check (.ack 0x0062 0))) ∧
    after (exec (.ackEnhOff (akOk 0x63)) { pendingS .enhOff with enhanced := true }) (fun t => (t.enhanced, t.result))
      = some (false, some (.check (.ack 0x0063 0))) := by decide

/-- K-15 and K-31. -/
theorem test_ack_read_mac :
    after (exec (.ackReadMac [0xA5, 0x00, 0x00, 0x00, 0x8F, 0x27, 0x2E, 0x9A, 0x1B, 0x3C]) (pendingS .readMac))
      (fun t => (t.cfg.macValid, t.readReg 0x27 0, t.readReg 0x27 5, t.readReg 0x27 6)) = some (true, 0x8F, 0x3C, 0) ∧
    after (exec (.ackReadMac [0xA5, 0x00, 0x00, 0x00, 0x11, 0x22]) (pendingS .readMac))
      (fun t => (t.result, t.events, t.pendValid, t.cfg.macValid))
      = some (some (.check .fail), [.shortPayload], true, false) := by decide

/-- K-16. -/
theorem test_ack_read_fw :
    after (exec (.ackReadFw [0xA0, 0x00, 0x00, 0x00, 0x00, 0x00, 0x07, 0x01, 0x16, 0x15, 0x09, 0x22]) (pendingS .readFw))
      (fun t => (t.cfg.fwValid, t.cfg.fwType, t.cfg.fwMajor, t.cfg.fwMinor)) = some (true, 0, 0x0107, 0x22091516) := by decide

/-- K-17, K-18, K-19. -/
theorem test_ack_read_res :
    after (exec (.ackReadRes [0xAB, 0x00, 0x00, 0x00, 0x01, 0x00]) (pendingS .readRes)) (·.readReg 0x28 0) = some 1 ∧
    after (exec (.ackReadRes [0xAB, 0x00, 0x00, 0x00, 0x00, 0x00]) (pendingS .readRes)) (·.readReg 0x28 0) = some 2 ∧
    after (exec (.ackReadRes [0xAB, 0x00, 0x00, 0x00, 0x02, 0x00]) (pendingS .readRes)) (·.readReg 0x28 0) = some 0 := by
  decide

/-- K-21 and H-26; K-28. -/
theorem test_ack_read_params :
    after (exec (.ackReadParams akPar) (pendingS .readParams)) (·.cfg) = some
      { DeviceConfig.unknown with
        paramValid := true, maxMov := 8, maxStat := 6, range := 8, noone := 3
        movThr := [0x32, 0x32, 0x28, 0x1E, 0x14, 0x0F, 0x0F, 0x0F, 0x0F]
        statThr := [0x00, 0x00, 0x28, 0x1E, 0x14, 0x0F, 0x0F, 0x0F, 0x0F] } ∧
    after (exec (.ackReadParams [0x61, 0x00, 0xFF, 0xFF]) (pendingS .readParams)) (fun t => (t.result, t.cfg.paramValid))
      = some (some (.check (.ack 0x0061 0xFFFF)), false) := by decide

/-- K-20 and K-22 to K-27: the request ends and no configuration register is written; V-S4: a rejected SET_RES. -/
theorem test_ack_set :
    after (exec (.ackSetRes (akOk 0xAA)) (pendingS .setRes)) (fun t => (t.cfg, t.pendValid, t.result))
      = some (.unknown, false, some (.check (.ack 0x00AA 0))) ∧
    after (exec (.ackSetRes [0xAA, 0x00, 0x01, 0x00]) (pendingS .setRes)) (·.result) = some (some (.check (.ack 0x00AA 1))) ∧
    after (exec (.ackSetGateThr (akOk 0x64)) (pendingS .setGateThr)) (·.result) = some (some (.check (.ack 0x0064 0))) ∧
    after (exec (.ackSetMaxgateNoone (akOk 0x60)) (pendingS .setMaxgateNoone)) (·.result)
      = some (some (.check (.ack 0x0060 0))) ∧
    after (exec (.ackFactoryReset (akOk 0xA2)) (pendingS .factoryReset)) (·.result) = some (some (.check (.ack 0x00A2 0))) ∧
    after (exec (.ackReboot (akOk 0xA3)) (pendingS .reboot)) (fun t => (t.result, t.inCfg))
      = some (some (.check (.ack 0x00A3 0)), true) ∧
    after (exec (.ackBtOn (akOk 0xA4)) (pendingS .btOn)) (·.result) = some (some (.check (.ack 0x00A4 0))) ∧
    after (exec (.ackBtOff (akOk 0xA4)) (pendingS .btOff)) (·.result) = some (some (.check (.ack 0x00A4 0))) := by decide

/-- K-3 and K-8, K-4. -/
theorem test_ack_unsolicited :
    after (exec (.ackUnsolicited akEnter) (pendingS .readRes)) (fun t => (t.result, t.events, t.pendValid))
      = some (some (.check .data), [.unsolicitedAck], true) ∧
    after (exec (.ackUnsolicited (akOk 0xFE)) { checkingS with inst := { Instance.standard with unsolAckResult := .fail } })
      (·.result) = some (some (.check .fail)) ∧
    after (exec (.ackUnsolicited [0xFF, 0x00]) (pendingS .enterCfg)) (fun t => (t.events, t.pendValid))
      = some ([.shortPayload], true) := by decide

/-! ### Transmit -/

/-- What TX answers, what it appends, and the state of the request. -/
def txSees (i : Instr) (s : State) : Option (Option OpResult × List Byte × Bool × Cmd) :=
  after (exec i s) fun t => (t.result, t.tx, t.pendValid, t.pendCmd)

/-- H-1, H-2, H-4. -/
theorem test_tx_config_and_mac :
    txSees .txEnterCfg State.reset = some (some (.tx .sent),
      [0xFD, 0xFC, 0xFB, 0xFA, 0x04, 0x00, 0xFF, 0x00, 0x01, 0x00, 0x04, 0x03, 0x02, 0x01], true, .enterCfg) ∧
    txSees .txExitCfg State.reset = some (some (.tx .sent),
      [0xFD, 0xFC, 0xFB, 0xFA, 0x02, 0x00, 0xFE, 0x00, 0x04, 0x03, 0x02, 0x01], true, .exitCfg) ∧
    txSees .txReadMac State.reset = some (some (.tx .sent),
      [0xFD, 0xFC, 0xFB, 0xFA, 0x04, 0x00, 0xA5, 0x00, 0x01, 0x00, 0x04, 0x03, 0x02, 0x01], true, .readMac) := by decide

/-- H-5, H-6, H-8. -/
theorem test_tx_requests :
    txSees .txReadFw State.reset = some (some (.tx .sent),
      [0xFD, 0xFC, 0xFB, 0xFA, 0x02, 0x00, 0xA0, 0x00, 0x04, 0x03, 0x02, 0x01], true, .readFw) ∧
    txSees .txReadRes State.reset = some (some (.tx .sent),
      [0xFD, 0xFC, 0xFB, 0xFA, 0x02, 0x00, 0xAB, 0x00, 0x04, 0x03, 0x02, 0x01], true, .readRes) ∧
    txSees .txReadParams State.reset = some (some (.tx .sent),
      [0xFD, 0xFC, 0xFB, 0xFA, 0x02, 0x00, 0x61, 0x00, 0x04, 0x03, 0x02, 0x01], true, .readParams) := by decide

/-- H-10, H-11, H-12. -/
theorem test_tx_modes :
    txSees .txEnhOn configS = some (some (.tx .sent),
      [0xFD, 0xFC, 0xFB, 0xFA, 0x02, 0x00, 0x62, 0x00, 0x04, 0x03, 0x02, 0x01], true, .enhOn) ∧
    txSees .txEnhOff configS = some (some (.tx .sent),
      [0xFD, 0xFC, 0xFB, 0xFA, 0x02, 0x00, 0x63, 0x00, 0x04, 0x03, 0x02, 0x01], true, .enhOff) ∧
    txSees (.txSetRes 0) configS = some (some (.tx .sent),
      [0xFD, 0xFC, 0xFB, 0xFA, 0x04, 0x00, 0xAA, 0x00, 0x00, 0x00, 0x04, 0x03, 0x02, 0x01], true, .setRes) := by decide

/-- H-13, H-15. -/
theorem test_tx_thresholds :
    txSees (.txSetGateThr 0x0000FFFF 50 40) configS = some (some (.tx .sent),
      [0xFD, 0xFC, 0xFB, 0xFA, 0x14, 0x00, 0x64, 0x00, 0x00, 0x00, 0xFF, 0xFF, 0x00, 0x00, 0x01, 0x00, 0x32, 0x00, 0x00, 0x00,
        0x02, 0x00, 0x28, 0x00, 0x00, 0x00, 0x04, 0x03, 0x02, 0x01], true, .setGateThr) ∧
    txSees (.txSetMaxgateNoone 8 8 3) configS = some (some (.tx .sent),
      [0xFD, 0xFC, 0xFB, 0xFA, 0x14, 0x00, 0x60, 0x00, 0x00, 0x00, 0x08, 0x00, 0x00, 0x00, 0x01, 0x00, 0x08, 0x00, 0x00, 0x00,
        0x02, 0x00, 0x03, 0x00, 0x00, 0x00, 0x04, 0x03, 0x02, 0x01], true, .setMaxgateNoone) := by decide

/-- H-16, H-17. -/
theorem test_tx_device :
    txSees .txFactoryReset configS = some (some (.tx .sent),
      [0xFD, 0xFC, 0xFB, 0xFA, 0x02, 0x00, 0xA2, 0x00, 0x04, 0x03, 0x02, 0x01], true, .factoryReset) ∧
    txSees .txReboot configS = some (some (.tx .sent),
      [0xFD, 0xFC, 0xFB, 0xFA, 0x02, 0x00, 0xA3, 0x00, 0x04, 0x03, 0x02, 0x01], true, .reboot) := by decide

/-- H-18, H-19. -/
theorem test_tx_bluetooth :
    txSees .txBtOn configS = some (some (.tx .sent),
      [0xFD, 0xFC, 0xFB, 0xFA, 0x04, 0x00, 0xA4, 0x00, 0x01, 0x00, 0x04, 0x03, 0x02, 0x01], true, .btOn) ∧
    txSees .txBtOff configS = some (some (.tx .sent),
      [0xFD, 0xFC, 0xFB, 0xFA, 0x04, 0x00, 0xA4, 0x00, 0x00, 0x00, 0x04, 0x03, 0x02, 0x01], true, .btOff) := by decide

/-- V-P5 and H-20: GATED from reset, BUSY while a request is pending; nothing is written. -/
theorem test_tx_turned_away :
    txSees (.txSetRes 1) State.reset = some (some (.tx .gated), [], false, .enterCfg) ∧
    txSees .txReadRes (pendingS .readFw) = some (some (.tx .busy), [], true, .readFw) := by decide

/-! ### The other host operations -/

/-- R390's example, from a state with everything set; the FIFOs stay (R391). -/
theorem test_reset :
    let o := exec .reset { pendingS .exitCfg with checking := false, enhanced := true, rx := [0x12], tx := [0x34] }
    after o (fun t => (t.readReg 0x10 0, t.readReg 0x38 0, t.readReg 0x3C 0)) = some (0, 0, 0) ∧
    after o (fun t => (t.rx, t.tx, t.asm.state, t.enhanced)) = some ([0x12], [0x34], .seekHeader, false) := by decide

/-- H-23: CHECK begins, and with an empty FIFO its first round answers FAIL without an event. -/
theorem test_check :
    after (exec .check State.reset) (fun t => (t.checking, t.result)) = some (true, none) ∧
    after (step checkingS) (fun t => (t.checking, t.result, t.events)) = some (false, some (.check .fail), []) := by decide

/-- V-T2 and H-21, H-27. -/
theorem test_timeout :
    after (exec .timeout (pendingS .exitCfg)) (fun t => (t.inCfg, t.pendValid, t.events))
      = some (false, false, [.commandTimeout]) ∧
    after (exec .timeout (pendingS .setRes)) (fun t => (t.inCfg, t.pendValid)) = some (true, false) ∧
    after (exec .timeout configS) (fun t => (t.inCfg, t.events)) = some (true, []) := by decide

/-- H-24, H-25. -/
theorem test_rd :
    after (exec (.rd 0x3F 0) State.reset) (·.result) = some (some (.value 0)) ∧
    after (exec (.rd 0x19 2) { State.reset with snap := { Snapshot.empty with movSigs := [0x0A, 0x0B, 0x0C] } }) (·.result)
      = some (some (.value 0x0C)) ∧
    after (exec (.rd 0x19 3) { State.reset with snap := { Snapshot.empty with movSigs := [0x0A, 0x0B, 0x0C] } }) (·.result)
      = some (some (.value 0)) := by decide

/-- R308, R326, R10 and R7: what has no step is refused by name. -/
theorem test_refused :
    refusal (exec .reservedOp5 State.reset) = some .reservedHostOp ∧ refusal (exec .reservedOp6 State.reset) = some .reservedHostOp ∧
    refusal (exec .reservedOp7 State.reset) = some .reservedHostOp ∧
    refusal (exec .txReserved15 State.reset) = some .reservedCommand ∧
    refusal (step { checkingS with turns := [.host { w := 0b0110000 }] }) = some .overlappingCall ∧
    refusal (step { checkingS with inst := { Instance.standard with ovh := 65 } }) = some .invalidInstance := by decide

/-- R330: FEED appends at the tail. -/
theorem test_feed : after (exec (.feed [0x01, 0x02]) { checkingS with rx := [0xF4] }) (·.rx) = some [0xF4, 0x01, 0x02] := by
  decide

/-- The transport drains the transmit FIFO from its head (20_memory.md R87), and `NOW` sets the time input (R15). -/
theorem test_transport_and_clock :
    after (step { checkingS with tx := [0x01, 0x02, 0x03], turns := [.drain 2] }) (·.tx) = some [0x03] ∧
    after (step { checkingS with turns := [.clock 500] }) (·.timeNow) = some 500 := by decide

/-! ### A witness for each statement that has hypotheses -/

/-- In the middle of a Data frame, with a snapshot, the parameters and a request held: not the state after reset. -/
def midS : State :=
  { State.reset with
    asm := { Asm.clear with state := .readPayload, len := 10, plen := 1, pbuf := [(0, 0x02)] }
    snap := { Snapshot.empty with movPres := true, movSigs := [1, 2, 3], statSigs := [4, 5, 6] }
    cfg := { DeviceConfig.unknown with
      paramValid := true, maxMov := 2, maxStat := 1, range := 2, movThr := [7, 8, 9], statThr := [10, 11, 12] }
    inCfg := true, pendValid := true, pendCmd := .readMac, checking := true, rx := [0x01, 0x96], timeNow := 9 }

/-- `midS` meets the invariant. -/
theorem witness_inv : midS.Inv where
  inst_wf := by decide
  asm :=
    { wn_le := by decide, ln_le := by decide, tn_le := by decide, len_le := by decide, plen_lt := by decide
      plen_eq := by decide, no_header := by decide, pbuf_wf := by decide, pbuf_below := by decide
      pbuf_written := by decide }
  snap := by unfold Snapshot.Inv; decide
  cfg :=
    { thr_le := by decide, range_eq := by decide, proto_zero := by decide, fw_zero := by decide, mac_zero := by decide
      param_zero := by decide }
  ack_resolved := by intro _ _ h; cases h

/-- `midS` with these turns to come meets the invariant. -/
theorem midS_turns (ts : List Turn) : State.Inv { midS with turns := ts } where
  inst_wf := witness_inv.inst_wf
  asm := witness_inv.asm
  snap := witness_inv.snap
  cfg := witness_inv.cfg
  ack_resolved := witness_inv.ack_resolved

/-- A running CHECK whose next round takes `b` in the assembler state `a`; with an engine turn if `turn`. -/
def roundS (turn : Bool) (b : Byte) (a : Asm) : State :=
  { checkingS with rx := [b, 0x77], asm := a, turns := if turn then [.engine, .engine] else [] }

/-- The rounds of `roundS` take their byte. -/
theorem witness_round (b : Byte) (a : Asm) :
    RoundTakes (roundS true b a) b [0x77] [.engine] ∧ RoundTakes (roundS false b a) b [0x77] [] :=
  ⟨⟨⟨rfl, rfl, .inl rfl⟩, rfl⟩, ⟨⟨rfl, rfl, .inr ⟨.inl rfl, rfl⟩⟩, rfl⟩⟩

/-- So does the round of a CHECK whose end the host awaits, and the turns stay. -/
theorem witness_round_awaited (b : Byte) (a : Asm) :
    RoundTakes { roundS false b a with turns := [.await, .clock 5] } b [0x77] [.await, .clock 5] :=
  ⟨⟨rfl, rfl, .inr ⟨.inr ⟨_, rfl⟩, rfl⟩⟩, rfl⟩

theorem witness_DecodeOfEncodeIsIdentity :
    Instr.wf docCtx (.dataBasic (dfS2 ++ List.replicate 54 0)) = true ∧ Instr.wf docCtx (.dataReservedSubtype []) = true ∧
    Instr.wf vendorCtx (.dataEnhancedVendor dfV2) = true ∧ Instr.wf vendorCtx (.dataBadMarkerVendor [0x01]) = true ∧
    Instr.wf { docCtx with pend := some .btOff } (.ackBtOff (akOk 0xA4)) = true ∧
    Instr.wf { docCtx with pend := some .btOff } (.ackUnsolicited [0xA4, 0x00, 0x00]) = true ∧
    Instr.wf docCtx (.txSetRes 0xFFFF) = true ∧ Instr.wf docCtx .reservedOp7 = true := by decide

theorem witness_HostWordReadsItsFields : Cmd.enterCfg.code = 0 ∧ Cmd.btOff.code = 14 := by decide

/-- The payload 0x02 … is basic under DOC and, with 0xAA second, under VENDOR; one clause each, and the lengths 3 and 4 of an Ack. -/
theorem witness_CompletedFrameSelectsItsRow :
    (0x03 : Byte) ≠ checkingS.inst.subBasic ∧ (0x03 : Byte) ≠ checkingS.inst.subEnh ∧
    dfS2 = checkingS.inst.subBasic :: dfS2.tail ∧ dfD3 = checkingS.inst.subEnh :: dfD3.tail ∧
    checkingS.inst.subEnh ≠ checkingS.inst.subBasic ∧ checkingS.inst.profile = .doc ∧
    dfV1 = vendorInstance.subBasic :: 0xAA :: dfV1.tail.tail ∧ dfV2 = vendorInstance.subEnh :: 0xAA :: dfV2.tail.tail ∧
    vendorInstance.profile = .vendor ∧ ([] : List Byte).head? ≠ some 0xAA ∧ [(0xAB : Byte)].head? ≠ some 0xAA ∧
    [(0xFF : Byte), 0x00, 0x00].length < 4 ∧ 4 ≤ (akOk 0xFF).length := by decide

/-- The four Ack cases that a whole status word leaves. -/
theorem witness_CompletedFrameSelectsItsRow_ack :
    checkingS.pendValid = false ∧ (pendingS .enterCfg).pendValid = true ∧
    le16 (akOk 0xFE) 0 ≠ (pendingS .enterCfg).pendCmd.ackId (pendingS .enterCfg).inst.profile ∧
    le16 (akOk 0xFF) 0 = (pendingS .enterCfg).pendCmd.ackId (pendingS .enterCfg).inst.profile := by decide

/-- `WN = 0`, and `WN = 4` with the next byte completing each magic, or none. -/
theorem witness_SeekShiftsAndTestsTheWindow :
    RoundTakes (roundS true 0x11 Asm.clear) 0x11 [0x77] [.engine] ∧ Asm.clear.state = .seekHeader ∧ Asm.clear.wn < 4 ∧
    RoundTakes (roundS false 0xF1 { Asm.clear with win := ⟨0x00, 0xF4, 0xF3, 0xF2⟩, wn := 4 }) 0xF1 [0x77] [] ∧
    RoundTakes (roundS false 0xFA { Asm.clear with win := ⟨0xFD, 0xFC, 0xFB, 0x00⟩, wn := 3 }) 0xFA [0x77] [] :=
  ⟨(witness_round _ _).1, rfl, by decide, (witness_round _ _).2, (witness_round _ _).2⟩

/-- `LN = 0`, and `LN = 1` with `L` = 64, 65 and 0 at `LMAX = 64`. -/
theorem witness_LengthBytesAndOverflowGuard (lb : Byte) :
    RoundTakes (roundS true 0x00 (lengthAsm lb)) 0x00 [0x77] [.engine] ∧ (lengthAsm lb).state = .readLength ∧
    (lengthAsm lb).ln = 1 ∧ { lengthAsm lb with ln := 0 }.ln = 0 ∧
    ((0x40 : Byte).setWidth 16 ||| ((0x00 : Byte).setWidth 16 <<< 8) : Word16).toNat ≤
      Instance.standard.cap - Instance.standard.ovh ∧
    Instance.standard.cap - Instance.standard.ovh <
      ((0x41 : Byte).setWidth 16 ||| ((0x00 : Byte).setWidth 16 <<< 8) : Word16).toNat ∧
    ((0x00 : Byte).setWidth 16 ||| ((0x00 : Byte).setWidth 16 <<< 8) : Word16) = 0 :=
  ⟨(witness_round _ _).1, rfl, rfl, rfl, by decide, by decide, by decide⟩

/-- An assembler that has `n` of `l` payload bytes. -/
def payloadAsm (n l : Word16) : Asm := { Asm.clear with state := .readPayload, len := l, plen := n }

/-- The first of two bytes, and the last of `CAP` = 64. -/
theorem witness_PayloadByteIsAppended :
    RoundTakes (roundS true 0x02 (payloadAsm 0 2)) 0x02 [0x77] [.engine] ∧
    RoundTakes (roundS false 0x02 (payloadAsm 63 64)) 0x02 [0x77] [] ∧ (payloadAsm 0 2).state = .readPayload ∧
    (payloadAsm 0 2).plen.toNat < (payloadAsm 0 2).len.toNat ∧
    (payloadAsm 63 64).plen.toNat < (payloadAsm 63 64).len.toNat ∧
    (payloadAsm 63 64).len.toNat ≤ Instance.standard.cap :=
  ⟨(witness_round _ _).1, (witness_round _ _).2, rfl, by decide, by decide, by decide⟩

/-- The third byte, and a fourth byte that makes a Data header, an Ack header, or neither, where the Data tail should be. -/
theorem witness_TailBytesCollectedAndMismatchResyncs :
    RoundTakes (roundS true 0xF6 { tailAsm 0xF8 0xF7 0 with tn := 2 }) 0xF6 [0x77] [.engine] ∧
    RoundTakes (roundS true 0xF1 (tailAsm 0xF4 0xF3 0xF2)) 0xF1 [0x77] [.engine] ∧
    RoundTakes (roundS false 0xFA (tailAsm 0xFD 0xFC 0xFB)) 0xFA [0x77] [] ∧
    RoundTakes (roundS false 0x01 (tailAsm 0x04 0x03 0x02)) 0x01 [0x77] [] ∧
    (tailAsm 0x04 0x03 0x02).state = .readTail ∧ (tailAsm 0x04 0x03 0x02).tn = 3 ∧
    (⟨0x04, 0x03, 0x02, 0x01⟩ : Quad) ≠ tailMagic .data ∧ (⟨0xF4, 0xF3, 0xF2, 0xF1⟩ : Quad) ≠ tailMagic .data :=
  ⟨(witness_round _ _).1, (witness_round _ _).1, (witness_round _ _).2, (witness_round _ _).2, rfl, rfl, by decide,
    by decide⟩

/-- Idle, with an empty Data frame at its last tail byte but one: `u = F6` completes nothing, `u = F6 F5` completes it. -/
def nearEndS : State :=
  { State.reset with asm := { Asm.clear with state := .readTail, twin := ⟨0xF8, 0xF7, 0, 0⟩, tn := 2 } }

/-- The first CHECK runs to the end of `u`; and a frame completes within `u`, in its last byte. -/
theorem witness_ChunkingInvariance :
    nearEndS.inst.wf = true ∧ nearEndS.checking = false ∧
    after (steps 2 (checkOver nearEndS [0xF6] [])) (·.checking) = some true ∧
    after (steps 2 (checkOver nearEndS [0xF6, 0xF5] [])) (·.checking) = some true ∧
    after (steps 3 (checkOver nearEndS [0xF6, 0xF5] [])) (·.checking) = some false := by decide

/-- The empty payload and the longest one. -/
theorem witness_AssemblerReadsEncodedFrame :
    Instance.standard.wf = true ∧ ([] : List Byte).length ≤ Instance.standard.lmax ∧
    (List.replicate 64 (0xF4 : Byte)).length ≤ Instance.standard.lmax ∧ Asm.clear.state = .seekHeader ∧
    Asm.clear.wn = 0 := by decide

/-- No garbage, and R176's `00 11`. -/
theorem witness_ResyncPastGarbage : NoHeaderIn ([] ++ [0xF4, 0xF3, 0xF2]) ∧ NoHeaderIn ([0x00, 0x11] ++ [0xF4, 0xF3, 0xF2]) := by
  constructor
  · intro pre post q h
    have := congrArg List.length h
    simp [Quad.toList] at this
    omega
  · rintro pre post ⟨q0, q1, q2, q3⟩ h
    match pre with
    | [] =>
      simp [Quad.toList] at h
      obtain ⟨rfl, rfl, rfl, rfl, -⟩ := h
      decide
    | [_] =>
      simp [Quad.toList] at h
      obtain ⟨-, rfl, rfl, rfl, rfl, -⟩ := h
      decide
    | _ :: _ :: _ =>
      have := congrArg List.length h
      simp [Quad.toList] at this
      omega

/-- A host call in the idle machine after reset. -/
theorem witness_StepRunsTheHostCall :
    let s : State := { State.reset with turns := [.host { w := 0b0100101 }, .engine] }
    s.inst.wf = true ∧ s.checking = false ∧ s.turns = .host { w := 0b0100101 } :: [.engine] ∧
    decode docCtx (.call { w := 0b0100101 }) = .ok .txReadFw := by decide

/-- A Data frame of payload `02 01` and an empty Ack frame at their last tail byte. -/
theorem witness_StepRunsTheCompletedFrame :
    let a : Asm := { tailAsm 0xF8 0xF7 0xF6 with len := 2, plen := 2, pbuf := [(0, 0x02), (1, 0x01)] }
    let e : Asm := { tailAsm 0x04 0x03 0x02 with kind := .ack }
    RoundTakes (roundS true 0xF5 a) 0xF5 [0x77] [.engine] ∧ RoundTakes (roundS false 0x01 e) 0x01 [0x77] [] ∧
    a.state = .readTail ∧ a.tn = 3 ∧ ({ a.twin with b3 := 0xF5 } : Quad) = tailMagic a.kind ∧
    a.pbuf.readFirst a.plen.toNat = some [0x02, 0x01] ∧
    decode (roundS true 0xF5 a).ctx (.frame (frameBytes .data [0x02, 0x01])) = .ok (.dataBasic [0x02, 0x01]) ∧
    ({ e.twin with b3 := 0x01 } : Quad) = tailMagic e.kind ∧ e.pbuf.readFirst e.plen.toNat = some [] ∧
    decode (roundS false 0x01 e).ctx (.frame (frameBytes .ack [])) = .ok (.ackUnsolicited []) :=
  ⟨(witness_round _ _).1, (witness_round _ _).2, by decide, by decide, by decide, by decide, by decide, by decide, by decide,
    by decide⟩

theorem witness_FeedAppendsToTheReceiveFifo :
    midS.inst.wf = true ∧ { midS with turns := [.transport [0x01], .await] }.turns = .transport [0x01] :: [.await] := by decide

/-- No turn left, and an awaited CHECK. -/
theorem witness_CheckBeginsAndFailsOnAnEmptyFifo : EngineNext checkingS [] ∧
    EngineNext { checkingS with turns := [.await] } [.await] ∧ checkingS.rx = [] :=
  ⟨⟨rfl, rfl, .inr ⟨.inl rfl, rfl⟩⟩, ⟨rfl, rfl, .inr ⟨.inr ⟨_, rfl⟩, rfl⟩⟩, rfl⟩

theorem witness_CheckEndsWithinTheFifo : midS.Inv ∧ midS.checking = true ∧ CheckGoesOn midS ∧
    State.Inv { midS with turns := [.await] } ∧ CheckGoesOn { midS with turns := [.await] } :=
  ⟨witness_inv, rfl, .inl rfl, midS_turns _, .inr ⟨_, rfl⟩⟩

theorem witness_MachineComesToRest :
    let ts : List Turn := [.engine, .transport [0x00, 0x50], .clock 7, .drain 1, .await]
    State.Inv { midS with turns := ts } ∧ ts.all Turn.environment = true := ⟨midS_turns _, by decide⟩

/-- `DF_S2` in the FIFO of a running CHECK, with bytes behind it. -/
theorem witness_CheckExecutesTheFirstFrame :
    let s : State := { checkingS with rx := frameBytes .data dfS2 ++ [0xF4, 0xF3] }
    s.inst.wf = true ∧ s.checking = true ∧ CheckGoesOn s ∧ s.asm.state = .seekHeader ∧ s.asm.wn = 0 ∧
    dfS2.length ≤ s.inst.lmax ∧ decode s.ctx (.frame (frameBytes .data dfS2)) = .ok (.dataBasic dfS2) :=
  ⟨by decide, rfl, .inl rfl, rfl, rfl, by decide, by decide⟩

/-- A state in which Data frames are not blocked, in config mode too. -/
theorem witness_unblocked : ¬ Blocked midS ∧ midS.inCfg = true := by unfold Blocked; decide

/-- Lengths 10 and 9. -/
theorem witness_DataBasicCommits : ¬ Blocked midS ∧ 10 ≤ dfS2.length ∧ (dfS2.take 9).length < 10 :=
  ⟨witness_unblocked.1, by decide, by decide⟩

/-- `NG` = 3 from `RANGE` = 2: lengths 16 and 15; `NG` = 0 with `PARAM_VALID` = 0. -/
theorem witness_DataEnhancedCommits : ¬ Blocked midS ∧
    10 + 2 * (if midS.cfg.paramValid = true then min (midS.cfg.range.toNat + 1) 9 else 0) = 16 ∧ dfD3.length = 16 ∧
    (dfD3.take 15).length < 16 ∧ ¬ Blocked checkingS ∧ checkingS.cfg.paramValid = false :=
  ⟨witness_unblocked.1, by decide, by decide, by decide, by unfold Blocked; decide, by decide⟩

/-- Lengths 11 and 10, and 2. -/
theorem witness_DataBasicVendorCommits : ¬ Blocked midS ∧ byteAt dfV1 1 = 0xAA ∧ 11 ≤ dfV1.length ∧
    (dfV1.take 10).length < 11 ∧ byteAt (dfV1.take 2) 1 = 0xAA ∧ 2 ≤ (dfV1.take 2).length :=
  ⟨witness_unblocked.1, by decide, by decide, by decide, by decide, by decide⟩

/-- `MM = MS = 1`: lengths 17, 16, 13 and 12. -/
theorem witness_DataEnhancedVendorCommits : ¬ Blocked midS ∧ byteAt dfV2 1 = 0xAA ∧
    15 + (byteAt dfV2 11).toNat + (byteAt dfV2 12).toNat = dfV2.length ∧
    (dfV2.take 16).length < 15 + (byteAt (dfV2.take 16) 11).toNat + (byteAt (dfV2.take 16) 12).toNat ∧
    13 ≤ (dfV2.take 13).length ∧
    (dfV2.take 13).length < 15 + (byteAt (dfV2.take 13) 11).toNat + (byteAt (dfV2.take 13) 12).toNat ∧
    (dfV2.take 12).length < 13 ∧ byteAt (dfV2.take 12) 1 = 0xAA :=
  ⟨witness_unblocked.1, by decide, by decide, by decide, by decide, by decide, by decide, by decide⟩

/-- Lengths 1 and 2. -/
theorem witness_VendorHeadMarkerIsChecked : ¬ Blocked midS ∧ [(0x02 : Byte)].length < 2 ∧ byteAt [0x02, 0xAB] 1 ≠ 0xAA :=
  ⟨witness_unblocked.1, by decide, by decide⟩

theorem witness_UnknownSubtypeIsRejected : (0x03 : Byte) ≠ midS.inst.subBasic ∧ (0x03 : Byte) ≠ midS.inst.subEnh := by decide

theorem witness_DataBlockedInConfigMode :
    let s : State := { midS with inst := { Instance.standard with dataInCfg := .block } }
    s.inCfg = true ∧ s.inst.dataInCfg = .block := by decide

/-- A Data row that commits and one that does not. -/
theorem witness_DataRowsChangeOnlyTheSnapshot : (∃ t, exec (.dataBasic dfS2) midS = .next t) ∧
    ∃ t, exec (.dataBadMarkerVendor [0x02]) midS = .next t := ⟨⟨_, rfl⟩, ⟨_, rfl⟩⟩

/-- Steps that commit, that empty the snapshot, and that leave it. -/
theorem witness_SnapshotWrittenOnlyByCommitAndReset :
    (∃ t, step (State.reset.withFetchWord 48 0xF4F3F2F10200) = .next t) ∧
    (∃ t, step (State.reset.withFetchWord 8 0) = .next t) ∧ ∃ t, step midS = .next t := ⟨⟨_, rfl⟩, ⟨_, rfl⟩, ⟨_, rfl⟩⟩

theorem witness_RejectedAckEndsTheRequest : le16 [0xFF, 0x00, 0x01, 0x00] 2 ≠ 0 := by decide

/-- The lengths just below each `NEED`. -/
theorem witness_ShortAckKeepsTheRequest : le16 (akEnter.take 7) 2 = 0 ∧ (akEnter.take 7).length < 8 ∧
    le16 (akPar.take 27) 2 = 0 ∧ (akPar.take 27).length < 28 ∧ (akPar.take 11).length < 12 ∧ (akPar.take 9).length < 10 ∧
    (akPar.take 5).length < 6 ∧ le16 (akPar.take 3) 2 = 0 ∧ (akPar.take 3).length < 4 := by decide

/-- Lengths 8 and 4. -/
theorem witness_ModeAcksWriteTheModeFlags : le16 akEnter 2 = 0 ∧ 8 ≤ akEnter.length ∧ le16 (akOk 0xFE) 2 = 0 ∧
    4 ≤ (akOk 0xFE).length := by decide

/-- Lengths 10, 12 and 6, each the least. -/
theorem witness_ReadAcksWriteTheirRegisters : le16 (akOk 0xA5 ++ List.replicate 6 1) 2 = 0 ∧
    10 ≤ (akOk 0xA5 ++ List.replicate 6 1).length ∧ 12 ≤ (akOk 0xA0 ++ List.replicate 8 1).length ∧
    6 ≤ (akOk 0xAB ++ List.replicate 2 1).length := by decide

theorem witness_ReadParamsAckWritesTheGroup : le16 akPar 2 = 0 ∧ akPar.length = 28 := by decide

theorem witness_SetAcksWriteNoRegister : le16 (akOk 0xAA) 2 = 0 ∧ 4 ≤ (akOk 0xAA).length := by decide

/-- Nothing pending, another command pending, and length 3. -/
theorem witness_UnsolicitedAckIsIgnored : 4 ≤ akEnter.length ∧
    ¬ (checkingS.pendValid = true ∧ le16 akEnter 0 = checkingS.pendCmd.ackId checkingS.inst.profile) ∧
    ¬ (midS.pendValid = true ∧ le16 akEnter 0 = midS.pendCmd.ackId midS.inst.profile) ∧ (akEnter.take 3).length < 4 := by
  decide

/-- Each command's Ack is answered, whatever its payload. -/
theorem witness_AckRowsChangeOnlyTheirRegisters (c : Cmd) : ∃ t, exec (ackInstr c akPar) midS = .next t := by
  cases c <;> exact ⟨_, rfl⟩

theorem witness_UngatedTransmitSends : State.reset.pendValid = false ∧ configS.pendValid = false := by decide

/-- In and outside config mode. -/
theorem witness_GatedTransmitSends : State.reset.pendValid = false ∧ State.reset.inCfg = false ∧ configS.pendValid = false ∧
    configS.inCfg = true := by decide

theorem witness_TransmitTurnedAway : midS.pendValid = true ∧ State.reset.pendValid = false ∧ State.reset.inCfg = false ∧
    Cmd.btOff ∈ gatedCommands := by decide

/-- A TX that is sent, one answered GATED, one answered BUSY. -/
theorem witness_TransmitChangesOnlyRequestAndFifo : (∃ t, exec (txInstr .setGateThr 1 2 3) configS = .next t) ∧
    (∃ t, exec (txInstr .btOn 0 0 0) State.reset = .next t) ∧ ∃ t, exec (txInstr .readFw 0 0 0) midS = .next t :=
  ⟨⟨_, rfl⟩, ⟨_, rfl⟩, ⟨_, rfl⟩⟩

theorem witness_TransmitEchoUnderDoc : (pendingS .exitCfg).inst.profile = .doc ∧ (pendingS .exitCfg).pendValid = true ∧
    (pendingS .exitCfg).pendCmd = .exitCfg ∧ (pendingS .setRes).pendCmd = .setRes ∧ (pendingS .btOff).pendCmd = .btOff := by
  decide

theorem witness_EveryRegisterReadsZeroAfterReset : ∃ t, exec .reset midS = .next t := ⟨_, rfl⟩

theorem witness_TimeoutResolvesTheRequest : (pendingS .exitCfg).pendValid = true ∧ (pendingS .exitCfg).pendCmd = .exitCfg ∧
    midS.pendValid = true ∧ midS.pendCmd ≠ .exitCfg ∧ checkingS.pendValid = false := by decide

theorem witness_LateAckIsUnsolicited : (∃ t, exec .timeout midS = .next t) ∧ ∃ t, exec .timeout checkingS = .next t :=
  ⟨⟨_, rfl⟩, ⟨_, rfl⟩⟩

/-- A reserved index beside the map's last and between its parts, and the widest one. -/
theorem witness_RdReturnsTheRegisterMap : (0x3D : Word32).toNat ∉ rdIndexes ∧ (0x32 : Word32).toNat ∉ rdIndexes ∧
    (0xFFFFFFFF : Word32).toNat ∉ rdIndexes ∧ (0 : Word32).toNat < midS.snap.movSigs.length ∧
    ¬ (3 : Word32).toNat < midS.snap.movSigs.length := by decide

/-- `OVH` one above `CAP`, equal sub-types, and a host call in the middle of a CHECK. -/
theorem witness_OverlapAndBadInstanceAreRefused :
    { Instance.standard with ovh := 65 }.cap < { Instance.standard with ovh := 65 }.ovh ∧
    { Instance.standard with subEnh := 0x02 }.subBasic = { Instance.standard with subEnh := 0x02 }.subEnh ∧
    midS.inst.wf = true ∧ midS.checking = true ∧
    { midS with turns := [.host { w := 0 }] }.turns = .host { w := 0 } :: [] := by decide

theorem witness_InvariantKeptByEveryStep : midS.Inv ∧ ∃ t, step midS = .next t := ⟨witness_inv, ⟨_, rfl⟩⟩

theorem witness_NoStepFaults : midS.Inv := witness_inv

/-- Entering by an ENTER_CFG Ack; leaving by an EXIT_CFG Ack, by TIMEOUT and by RESET. -/
theorem witness_ConfigModeEnteredAndLeftOnlyAsStated :
    let ack : Asm := { Asm.clear with
      state := .readTail, kind := .ack, len := 8, plen := 8, twin := ⟨0x04, 0x03, 0x02, 0⟩, tn := 3
      pbuf := Memory.ofList akEnter }
    let enter : State := { pendingS .enterCfg with inCfg := false, rx := [0x01], asm := ack }
    let exit : State := { pendingS .exitCfg with
      rx := [0x01], asm := { ack with len := 4, plen := 4, pbuf := Memory.ofList (akOk 0xFE) } }
    let byHost : BitVec 7 → State := fun w =>
      { pendingS .exitCfg with checking := false, turns := [.host { w := w }] }
    enter.inCfg = false ∧ after (step enter) (·.inCfg) = some true ∧
    exit.inCfg = true ∧ after (step exit) (·.inCfg) = some false ∧
    (byHost 0b0110000).inCfg = true ∧ after (step (byHost 0b0110000)) (·.inCfg) = some false ∧
    after (step (byHost 0b0000000)) (·.inCfg) = some false := by decide

/-- Begun by TX; ended by an Ack, by TIMEOUT and by RESET. -/
theorem witness_RequestSetAndClearedOnlyAsStated :
    let ack : Asm := { Asm.clear with
      state := .readTail, kind := .ack, len := 4, plen := 4, twin := ⟨0x04, 0x03, 0x02, 0⟩, tn := 3
      pbuf := Memory.ofList (akOk 0xAA) }
    let byHost : BitVec 7 → State → State := fun w s => { s with checking := false, turns := [.host { w := w }] }
    configS.pendValid = false ∧ after (step (byHost 0b0100111 configS)) (·.pendValid) = some true ∧
    after (step { pendingS .setRes with rx := [0x01], asm := ack }) (·.pendValid) = some false ∧
    after (step (byHost 0b0110000 midS)) (·.pendValid) = some false ∧
    after (step (byHost 0b0000000 midS)) (·.pendValid) = some false := by decide

/-- A step without a host turn, and a TIMEOUT, in a state with a VALID bit set. -/
theorem witness_ValidBitsArePermanent : (∃ t, step midS = .next t) ∧ (∀ c ts, midS.turns ≠ .host c :: ts) ∧
    midS.cfg.paramValid = true ∧ decodeCall { w := 0b0110000 } ≠ .reset := ⟨⟨_, rfl⟩, by nofun, by decide, by decide⟩

theorem witness_AtMostOneEventPerStep :
    after (step { checkingS with rx := [0x01], asm := lengthAsm 0xFF }) (·.events) = some [.lengthOverflow] := by decide

/-- A COMMAND_TIMEOUT, and another event. -/
theorem witness_ErrorsWriteNoVisibleState :
    after (step { midS with checking := false, turns := [.host { w := 0b0110000 }] }) (·.events) = some [.commandTimeout] ∧
    after (step { midS with checking := false, turns := [.host { w := 0b0100000 }] }) (·.events) = some [.txBusy] := by decide

/-- Idle, nothing pending, and the Ack of READ_RES at its last tail byte. -/
def beforeAckS : State :=
  { midS with
    pendValid := false, checking := false, rx := [0x01]
    asm := { Asm.clear with
      state := .readTail, kind := .ack, len := 6, plen := 6, twin := ⟨0x04, 0x03, 0x02, 0⟩, tn := 3
      pbuf := Memory.ofList [0xAB, 0x00, 0x00, 0x00, 0x01, 0x00] } }

/-- It meets the invariant. -/
theorem beforeAckS_inv : beforeAckS.Inv where
  inst_wf := by decide
  asm :=
    { wn_le := by decide, ln_le := by decide, tn_le := by decide, len_le := by decide, plen_lt := by decide
      plen_eq := by decide, no_header := by decide, pbuf_wf := by decide, pbuf_below := by decide
      pbuf_written := by decide }
  snap := witness_inv.snap
  cfg := witness_inv.cfg
  ack_resolved := by intro _ _ h; cases h

/-- So does the state with an empty receive FIFO. -/
theorem beforeAckS_empty_inv : State.Inv { beforeAckS with rx := [] } where
  inst_wf := beforeAckS_inv.inst_wf
  asm := beforeAckS_inv.asm
  snap := beforeAckS_inv.snap
  cfg := beforeAckS_inv.cfg
  ack_resolved := beforeAckS_inv.ack_resolved

/-- A request that its Ack ends, and one that the bound ends. -/
theorem witness_RequestEndsWithNonePending : beforeAckS.Inv ∧ State.Inv { beforeAckS with rx := [] } ∧
    beforeAckS.pendValid = false ∧
    (∃ t, request { tBegin := 0 } (txInstr .readRes 0 0 0) [{ env := [], elapsed := 1 }] beforeAckS = .succeeded t) ∧
    ∃ t, request { tBegin := 0 } (txInstr .readRes 0 0 0) [{ env := [], elapsed := 2000 }] { beforeAckS with rx := [] }
      = .failed t :=
  ⟨beforeAckS_inv, beforeAckS_empty_inv, rfl, ⟨_, rfl⟩, ⟨_, rfl⟩⟩

end Sys2Proof.Machine.Tests
end

section
/-! PROOFS. The scope statements (00_scope.md): which turns reach an operation, and which are refused. -/

namespace Sys2Proof.Machine

open Sys2Proof

/-! ### The parameters (R6, R7) -/

/-- R7: `OVH` above `CAP` and equal sub-type bytes each break a constraint. -/
theorem wf_eq_false_of_badParameters {c : Instance} (h : c.cap < c.ovh ∨ c.subBasic = c.subEnh) : c.wf = false := by
  refine decide_eq_false fun ⟨_, _, hovh, hsub⟩ => ?_
  rcases h with hlt | heq
  · exact Nat.not_le_of_lt hlt hovh
  · exact hsub heq

/-- R7: under invalid parameters no turn is run, whatever the state. -/
theorem step_of_not_wf {s : State} (h : s.inst.wf = false) : step s = .refused .invalidInstance := by
  simp [step_eq, fetch, h]

/-! ### Host turns -/

/-- Under valid parameters a host turn is fetched as its call, on the state moved past the turn. -/
theorem fetch_host {s : State} {c : HostCall} {ts : List Turn} (hw : s.inst.wf = true) (ht : s.turns = .host c :: ts) :
    fetch s = hostTurn c (s.turned ts) := by
  simp [fetch, hw, ht, State.turned]

/-- R300: a host turn in an idle machine runs the operation of its word. -/
theorem step_host_of_idle {s : State} {c : HostCall} {ts : List Turn} (hw : s.inst.wf = true) (hc : s.checking = false)
    (ht : s.turns = .host c :: ts) : step s = exec (decodeCall c) (s.turned ts) := by
  simp [step_eq, fetch_host hw ht, hostTurn, State.turned, hc]

/-- R10, R400: a host turn while a CHECK is in progress has no step, whatever its word. -/
theorem step_host_of_checking {s : State} {c : HostCall} {ts : List Turn} (hw : s.inst.wf = true)
    (hc : s.checking = true) (ht : s.turns = .host c :: ts) : step s = .refused .overlappingCall := by
  simp [step_eq, fetch_host hw ht, hostTurn, State.turned, hc]

/-! ### The obligations -/

/-- Settles O13: the decoder reads a call by `decodeCall` in every context, and the fetch of a host turn does too. -/
theorem stepRunsTheHostCall : Obligations.StepRunsTheHostCall := by
  unfold Obligations.StepRunsTheHostCall
  intro s x c i ts hw hc ht hdecode
  have hi : decodeCall c = i := Except.ok.inj hdecode
  rw [← hi]
  exact step_host_of_idle hw hc ht

/-- Settles O49: the parameters are tested before any turn is looked at, and a host turn is tested against a running CHECK
before its word is decoded. -/
theorem overlapAndBadInstanceAreRefused : Obligations.OverlapAndBadInstanceAreRefused := by
  unfold Obligations.OverlapAndBadInstanceAreRefused
  intro s
  constructor
  · intro hbad
    exact step_of_not_wf (wf_eq_false_of_badParameters hbad)
  · intro hw hc c ts ht
    exact step_host_of_checking hw hc ht

end Sys2Proof.Machine
end

section
/-! PROOFS. What a step can do, said once by inversion: which agent's turn it was, what the meaning it ran answered, and what became
of the registers that the host can see. -/

namespace Sys2Proof.Machine

open Sys2Proof

/-! ### The turn of a step -/

/-- Which turn a step took. A round of a running CHECK that takes a byte ends in `afterRound`, with the error of the byte step
resolved or with the meaning of the completed frame run on it (44_host_ops.md R302, 40_assembler.md R172). -/
inductive StepTurn (s : State) : State → Prop
  /-- a transport, drain or clock turn, or a turn that finds the block idle: FIFOs and inputs only -/
  | environment (ts : List Turn) (rx tx : List Byte) (now : Word32) :
      StepTurn s { s.turned ts with rx := rx, tx := tx, timeNow := now }
  /-- a round that finds the receive FIFO empty -/
  | fifoEmpty (ts : List Turn) (hc : s.checking = true) (hrx : s.rx = []) : StepTurn s ((s.turned ts).endCheck .fail)
  /-- a round whose byte step answers NONE -/
  | byteTaken (ts : List Turn) (b : Byte) (rest : List Byte) (a : Asm) (hc : s.checking = true) (hrx : s.rx = b :: rest)
      (hb : byteStep s.inst b s.asm = .none a) : StepTurn s (afterRound s rest ts a [])
  /-- a round whose byte step raises an error -/
  | asmError (ts : List Turn) (b : Byte) (rest : List Byte) (e : Event) (a : Asm) (hc : s.checking = true)
      (hrx : s.rx = b :: rest) (hb : byteStep s.inst b s.asm = .error e a) : StepTurn s ((afterRound s rest ts a []).takeError e)
  /-- a round whose byte step completes a frame -/
  | frame (ts : List Turn) (b : Byte) (rest : List Byte) (k : FrameKind) (p : List Byte) (a : Asm) (t : State)
      (hc : s.checking = true) (hrx : s.rx = b :: rest) (hb : byteStep s.inst b s.asm = .complete k p a)
      (ht : exec (selectRow s.ctx k p) (afterRound s rest ts a []) = .next t) : StepTurn s t
  /-- a host turn in an idle block -/
  | host (c : HostCall) (ts : List Turn) (t : State) (hturn : s.turns = .host c :: ts) (hc : s.checking = false)
      (ht : exec (decodeCall c) (s.turned ts) = .next t) : StepTurn s t

/-- A round that answers a next state took one of the engine's turns. -/
theorem stepTurn_of_engineTurn {s t : State} {ts : List Turn} (hc : s.checking = true)
    (hf : fetch s = engineTurn (s.turned ts)) (h : step s = .next t) : StepTurn s t := by
  rw [step_eq, hf] at h
  rcases engineTurn_cases (s.turned ts) with ⟨hrx, he⟩ | ⟨b, rest, hrx, hround⟩
  · rw [he] at h; cases h; exact .fifoEmpty ts hc hrx
  · rcases hround with ⟨a, hb, he⟩ | ⟨e, a, hb, he⟩ | ⟨k, p, a, hb, he⟩ | ⟨f, -, he⟩ <;> rw [he] at h
    · cases h; exact .byteTaken ts b rest a hc hrx hb
    · cases h; exact .asmError ts b rest e a hc hrx hb
    · exact .frame ts b rest k p a t hc hrx hb h
    · cases h

/-- Every step that answers a next state took one of these turns. -/
theorem stepTurn_of_step {s t : State} (h : step s = .next t) : StepTurn s t := by
  rcases fetch_cases s with ⟨-, hf⟩ | ⟨-, ⟨ts, hc, -, hf⟩ | ⟨ts, -, -, hf⟩ | ⟨c, ts, -, -, hf⟩ |
      ⟨c, ts, hturn, hc, hf⟩ | ⟨bs, ts, -, hf⟩ | ⟨n, ts, -, hf⟩ | ⟨now, ts, -, hf⟩⟩
  case inr.inl => exact stepTurn_of_engineTurn hc hf h
  all_goals rw [step_eq, hf] at h
  · cases h
  · cases h; exact .environment ts s.rx s.tx s.timeNow
  · cases h
  · exact .host c ts t hturn hc h
  · cases h; exact .environment ts (s.rx ++ bs) s.tx s.timeNow
  · cases h; exact .environment ts s.rx (s.tx.drop n) s.timeNow
  · cases h; exact .environment ts s.rx s.tx now

/-! ### The meaning of a completed frame -/

/-- A Data row's outcome: the frame is discarded by a passive error, or the snapshot of its payload is committed
(42_data_decoder.md R236). -/
def DiscardsOrCommits (s : State) (p : List Byte) (o : Host.Outcome State Fault Refusal) : Prop :=
  (∃ e : Event, e.Passive ∧ o = .next (s.discard e)) ∨ ∃ v, Commits s p v ∧ o = .next (committedFrame s v)

section
variable (s : State) (p : List Byte) (n : Nat) (k : State → Host.Outcome State Fault Refusal)

theorem DiscardsOrCommits.discard {s : State} {p : List Byte} (e : Event) (h : e.Passive) :
    DiscardsOrCommits s p (.next (s.discard e)) := .inl ⟨e, h, rfl⟩

theorem unlessBlocked_discardsOrCommits (h : DiscardsOrCommits s p (k s)) :
    DiscardsOrCommits s p (unlessBlocked s k) := by
  unfold unlessBlocked; split
  · exact .discard .dataBlocked (by simp [Event.Passive])
  · exact h

theorem needBytes_discardsOrCommits (h : DiscardsOrCommits s p (k s)) : DiscardsOrCommits s p (needBytes n p s k) := by
  unfold needBytes; split
  · exact .discard .shortPayload (by simp [Event.Passive])
  · exact h

theorem needMarker_discardsOrCommits (h : DiscardsOrCommits s p (k s)) : DiscardsOrCommits s p (needMarker p s k) := by
  refine needBytes_discardsOrCommits s p 2 _ ?_; split
  · exact .discard .badMarker (by simp [Event.Passive])
  · exact h

end

/-- The row that a Data payload selects carries the payload (41_classifier.md R204, 42_data_decoder.md R233). -/
theorem selectData_cases (x : DecodeCtx) (p : List Byte) :
    selectData x p = .dataReservedSubtype p ∨ selectData x p = .dataBadMarkerVendor p ∨
    selectData x p = .dataBasic p ∨ selectData x p = .dataEnhanced p ∨
    selectData x p = .dataBasicVendor p ∨ selectData x p = .dataEnhancedVendor p := by
  unfold selectData
  repeat' split
  all_goals simp

/-- A completed Data frame commits only what its own row's layout reads from its payload. -/
theorem selectData_discardsOrCommits (s : State) (p : List Byte) :
    DiscardsOrCommits s p (exec (selectData s.ctx p) s) := by
  rcases selectData_cases s.ctx p with hsel | hsel | hsel | hsel | hsel | hsel <;> rw [hsel]
  · show DiscardsOrCommits s p (execDataReservedSubtype p s)
    exact needBytes_discardsOrCommits s p 1 _ (.discard .unknownSubtype (by simp [Event.Passive]))
  · show DiscardsOrCommits s p (execDataBadMarkerVendor p s)
    exact unlessBlocked_discardsOrCommits s p _ (needBytes_discardsOrCommits s p 2 _
      (.discard .badMarker (by simp [Event.Passive])))
  · show DiscardsOrCommits s p (execDataBasic p s)
    exact unlessBlocked_discardsOrCommits s p _ (needBytes_discardsOrCommits s p 10 _
      (.inr ⟨_, .inl ⟨hsel, rfl⟩, rfl⟩))
  · show DiscardsOrCommits s p (execDataEnhanced p s)
    exact unlessBlocked_discardsOrCommits s p _ (needBytes_discardsOrCommits s p _ _
      (.inr ⟨_, .inr (.inl ⟨hsel, rfl⟩), rfl⟩))
  · show DiscardsOrCommits s p (execDataBasicVendor p s)
    exact unlessBlocked_discardsOrCommits s p _ (needMarker_discardsOrCommits s p _
      (needBytes_discardsOrCommits s p 11 _ (.inr ⟨_, .inr (.inr (.inl ⟨hsel, rfl⟩)), rfl⟩)))
  · show DiscardsOrCommits s p (execDataEnhancedVendor p s)
    exact unlessBlocked_discardsOrCommits s p _ (needMarker_discardsOrCommits s p _
      (needBytes_discardsOrCommits s p 13 _ (needBytes_discardsOrCommits s p _ _
        (.inr ⟨_, .inr (.inr (.inr ⟨hsel, rfl⟩)), rfl⟩))))

/-- What the meaning of a frame of family `k` with payload `p` answers in the state that selected its row. -/
inductive FrameOutcome (s : State) (k : FrameKind) (p : List Byte) : State → Prop
  /-- discarded or ignored: the event, and a result that is no ACK (41_classifier.md R208, R210) -/
  | dropped (e : Event) (r : CheckResult) (he : e.Passive) (hr : ∀ aid status, r ≠ .ack aid status) :
      FrameOutcome s k p ((s.emit e).endCheck r)
  /-- a Data frame committed (42_data_decoder.md R236) -/
  | committed (v : Snapshot) (hk : k = .data) (hv : Commits s p v) : FrameOutcome s k p (committedFrame s v)
  /-- the pending command's Ack with a nonzero status (43_ack_decoder.md R260) -/
  | rejected (hpend : s.pendValid = true) (haid : ackAid p = s.pendCmd.ackId s.inst.profile) :
      FrameOutcome s k p (ackedFrame s (ackAid p) (ackStatus p))
  /-- the pending command's Ack accepted (43_ack_decoder.md R262) -/
  | accepted (hpend : s.pendValid = true) (haid : ackAid p = s.pendCmd.ackId s.inst.profile) :
      FrameOutcome s k p ((ackEffect p s.pendCmd s).clearPending.endCheck (.ack (ackAid p) 0))

/-- A frame discarded by a passive error is dropped with FAIL. -/
theorem FrameOutcome.discard {s : State} {k : FrameKind} {p : List Byte} {e : Event} (he : e.Passive) :
    FrameOutcome s k p (s.discard e) := by
  rw [State.discard, s.takeError_passive e he]
  exact .dropped e .fail he nofun

theorem unsolicitedResult_ne_ack (c : Instance) (aid status : Word16) : unsolicitedResult c ≠ .ack aid status := by
  unfold unsolicitedResult; split <;> nofun

theorem frameOutcome_of_data {s t : State} {p : List Byte} (h : exec (selectRow s.ctx .data p) s = .next t) :
    FrameOutcome s .data p t := by
  rcases selectData_discardsOrCommits s p with ⟨e, he, ho⟩ | ⟨v, hv, ho⟩
  · cases h.symm.trans ho; exact .discard he
  · cases h.symm.trans ho; exact .committed v rfl hv

theorem frameOutcome_of_ack {s t : State} {p : List Byte} (h : exec (selectRow s.ctx .ack p) s = .next t) :
    FrameOutcome s .ack p t := by
  have h : exec (selectAck s.ctx p) s = .next t := h
  rcases selectAck_cases s.ctx p with hsel | ⟨c, hpend, -, haid, hsel⟩ <;> rw [hsel] at h
  · rcases execAckUnsolicited_cases p s with ⟨-, ho⟩ | ⟨-, ho⟩
    · cases h.symm.trans ho; exact .discard (by simp [Event.Passive])
    · cases h.symm.trans ho; exact .dropped .unsolicitedAck _ (by simp [Event.Passive]) (unsolicitedResult_ne_ack s.inst)
  · obtain ⟨hvalid, rfl⟩ := (s.pending_eq_some c).mp hpend
    rw [exec_ackInstr] at h
    rcases acceptAck_cases s.pendCmd (ackEffect p s.pendCmd) p s with ⟨-, ho⟩ | ⟨-, -, ho⟩ | ⟨-, -, ho⟩
    · cases h.symm.trans ho; exact .rejected hvalid haid
    · cases h.symm.trans ho; exact .discard (by simp [Event.Passive])
    · cases h.symm.trans ho; exact .accepted hvalid haid

/-- Every completed frame has one of these outcomes. -/
theorem frameOutcome_of_exec {s t : State} {k : FrameKind} {p : List Byte}
    (h : exec (selectRow s.ctx k p) s = .next t) : FrameOutcome s k p t := by
  cases k with
  | data => exact frameOutcome_of_data h
  | ack => exact frameOutcome_of_ack h

/-! ### The meaning of a host call -/

/-- What the meaning of the host call `c` answers. -/
inductive HostOutcome (s : State) (c : HostCall) : State → Prop
  | reset (hc : decodeCall c = .reset) : HostOutcome s c (s.resetRegisters.endOp .done)
  | check (hc : decodeCall c = .check) : HostOutcome s c { s with checking := true, result := none }
  /-- RD, TIMEOUT with no request pending, and TX turned away with its one event: ports only -/
  | answered (r : OpResult) (es : List Event) (hr : ∀ q, r ≠ .check q)
      (hes : es = s.events ∨ es = s.events ++ [.txBusy] ∨ es = s.events ++ [.configGated]) :
      HostOutcome s c { s with result := some r, events := es }
  /-- TX answered SENT (44_host_ops.md R310) -/
  | sent (cmd : Cmd) (a b d : Word32) (bytes : List Byte) (hc : decodeCall c = txInstr cmd a b d)
      (hpend : s.pendValid = false) : HostOutcome s c (sentFrame s cmd bytes)
  /-- TIMEOUT with a request pending (44_host_ops.md R307) -/
  | expired (hc : decodeCall c = .timeout) (hpend : s.pendValid = true) :
      HostOutcome s c ((s.expirePending.emit .commandTimeout).endOp .done)

/-- The operations that a host call can name (30_encoding.md R145). -/
theorem decodeCall_cases (c : HostCall) :
    decodeCall c = .reset ∨ decodeCall c = .check ∨ (∃ cmd, decodeCall c = txInstr cmd c.a c.b c.c) ∨
    decodeCall c = .txReserved15 ∨ decodeCall c = .timeout ∨ decodeCall c = .rd c.a c.b ∨
    decodeCall c = .reservedOp5 ∨ decodeCall c = .reservedOp6 ∨ decodeCall c = .reservedOp7 := by
  unfold decodeCall
  split
  case h_3 =>
    split
    · exact .inr (.inr (.inl ⟨_, rfl⟩))
    · simp
  all_goals simp

theorem hostOutcome_of_transmit {s t : State} {c : HostCall} {cmd : Cmd} {q : List Byte} {a b d : Word32}
    (hc : decodeCall c = txInstr cmd a b d) (h : transmit cmd q s = .next t) : HostOutcome s c t := by
  rcases transmit_cases cmd q s with ⟨-, ho⟩ | ⟨-, -, -, ho⟩ | ⟨hpend, -, ho⟩ <;> cases h.symm.trans ho
  · exact .answered _ _ nofun (.inr (.inl rfl))
  · exact .answered _ _ nofun (.inr (.inr rfl))
  · exact .sent cmd a b d _ hc hpend

theorem hostOutcome_of_timeout {s t : State} {c : HostCall} (hc : decodeCall c = .timeout)
    (h : exec .timeout s = .next t) : HostOutcome s c t := by
  have h : execTimeout s = .next t := h
  unfold execTimeout at h
  cases hpend : s.pendValid with
  | true => rw [hpend] at h; cases h; exact .expired hc hpend
  | false => rw [hpend] at h; cases h; exact .answered .done s.events nofun (.inl rfl)

/-- Every host call that answers a next state has one of these outcomes. -/
theorem hostOutcome_of_exec {s t : State} {c : HostCall} (h : exec (decodeCall c) s = .next t) : HostOutcome s c t := by
  rcases decodeCall_cases c with hc | hc | ⟨cmd, hc⟩ | hc | hc | hc | hc | hc | hc <;> rw [hc] at h
  · cases h; exact .reset hc
  · cases h; exact .check hc
  · rw [exec_txInstr] at h; exact hostOutcome_of_transmit hc h
  · cases h
  · exact hostOutcome_of_timeout hc h
  · cases h; exact .answered _ s.events nofun (.inl rfl)
  all_goals cases h

/-! ### The registers over a step -/

/-- The registers that the host can read, and the parameters, are the same in both states. -/
structure SameRegisters (s t : State) : Prop where
  inst : t.inst = s.inst
  snap : t.snap = s.snap
  cfg : t.cfg = s.cfg
  inCfg : t.inCfg = s.inCfg
  enhanced : t.enhanced = s.enhanced
  pendValid : t.pendValid = s.pendValid
  pendCmd : t.pendCmd = s.pendCmd

/-- What a step makes of the registers that the host can read: what it writes, in which turn, and under which result. -/
inductive RegisterChange (s t : State) : Prop
  | unchanged (h : SameRegisters s t)
  | committed (h : SameRegisters { s with snap := t.snap } t) (hcheck : s.checking = true) (hdone : t.checking = false)
      (hres : t.result = some (.check .data)) (hstate : s.asm.state = .readTail) (hkind : s.asm.kind = .data)
      (p : List Byte) (hp : s.asm.pbuf.readFirst s.asm.plen.toNat = some p) (hv : Commits s p t.snap)
  | rejected (h : SameRegisters s.clearPending t) (hcheck : s.checking = true) (status : Word16)
      (hres : t.result = some (.check (.ack (s.pendCmd.ackId s.inst.profile) status)))
  | accepted (p : List Byte) (h : SameRegisters (ackEffect p s.pendCmd s).clearPending t) (hcheck : s.checking = true)
      (hpend : s.pendValid = true) (hres : t.result = some (.check (.ack (s.pendCmd.ackId s.inst.profile) 0)))
  | reset (h : SameRegisters s.resetRegisters t) (c : HostCall) (ts : List Turn) (hturn : s.turns = .host c :: ts)
      (hc : decodeCall c = .reset)
  | sent (h : SameRegisters (s.setPending t.pendCmd) t) (c : HostCall) (ts : List Turn) (a b d : Word32)
      (hturn : s.turns = .host c :: ts) (hc : decodeCall c = txInstr t.pendCmd a b d) (hpend : s.pendValid = false)
      (hres : t.result = some (.tx .sent))
  | expired (h : SameRegisters s.expirePending t) (c : HostCall) (ts : List Turn) (hturn : s.turns = .host c :: ts)
      (hc : decodeCall c = .timeout) (hpend : s.pendValid = true)

/-- An effect writes the same registers whatever byte the round took before it. -/
theorem ackEffect_afterRound_sameRegisters (s : State) (rest : List Byte) (ts : List Turn) (a : Asm) (p : List Byte)
    (c : Cmd) : SameRegisters (ackEffect p c s) (ackEffect p c (afterRound s rest ts a [])) := by
  cases c <;> exact ⟨rfl, rfl, rfl, rfl, rfl, rfl, rfl⟩

/-- The errors of a byte step touch the assembler only. -/
theorem takeError_afterRound_sameRegisters {s : State} {b : Byte} {rest : List Byte} {ts : List Turn} {e : Event} {a : Asm}
    (hb : byteStep s.inst b s.asm = .error e a) : SameRegisters s ((afterRound s rest ts a []).takeError e) := by
  rcases byteStep_error s.inst b s.asm a e hb with rfl | rfl <;> exact ⟨rfl, rfl, rfl, rfl, rfl, rfl, rfl⟩

theorem registerChange_of_frame {s t : State} {b : Byte} {rest : List Byte} {ts : List Turn} {k : FrameKind}
    {p : List Byte} {a : Asm} (hcheck : s.checking = true) (hb : byteStep s.inst b s.asm = .complete k p a)
    (h : FrameOutcome (afterRound s rest ts a []) k p t) : RegisterChange s t := by
  obtain ⟨hstate, hkind, hp⟩ := byteStep_complete s.inst b s.asm a k p hb
  cases h with
  | dropped => exact .unchanged ⟨rfl, rfl, rfl, rfl, rfl, rfl, rfl⟩
  | committed v hk hv =>
    exact .committed ⟨rfl, rfl, rfl, rfl, rfl, rfl, rfl⟩ hcheck rfl rfl hstate (hkind.symm.trans hk) p hp hv
  | rejected _ haid =>
    exact .rejected ⟨rfl, rfl, rfl, rfl, rfl, rfl, rfl⟩ hcheck (ackStatus p) (by rw [haid]; rfl)
  | accepted hpend haid =>
    have he := ackEffect_afterRound_sameRegisters s rest ts a p s.pendCmd
    exact .accepted p ⟨he.inst, he.snap, he.cfg, he.inCfg, he.enhanced, rfl, he.pendCmd⟩ hcheck hpend
      (by rw [haid]; rfl)

theorem registerChange_of_host {s t : State} {c : HostCall} {ts : List Turn} (hturn : s.turns = .host c :: ts)
    (h : HostOutcome (s.turned ts) c t) : RegisterChange s t := by
  cases h with
  | reset hc => exact .reset ⟨rfl, rfl, rfl, rfl, rfl, rfl, rfl⟩ c ts hturn hc
  | check => exact .unchanged ⟨rfl, rfl, rfl, rfl, rfl, rfl, rfl⟩
  | answered => exact .unchanged ⟨rfl, rfl, rfl, rfl, rfl, rfl, rfl⟩
  | sent cmd a b d _ hc hpend => exact .sent ⟨rfl, rfl, rfl, rfl, rfl, rfl, rfl⟩ c ts a b d hturn hc hpend rfl
  | expired hc hpend => exact .expired ⟨rfl, rfl, rfl, rfl, rfl, rfl, rfl⟩ c ts hturn hc hpend

/-- Every step changes the registers that the host can read in one of these ways. -/
theorem registerChange_of_step {s t : State} (h : step s = .next t) : RegisterChange s t := by
  cases stepTurn_of_step h with
  | environment => exact .unchanged ⟨rfl, rfl, rfl, rfl, rfl, rfl, rfl⟩
  | fifoEmpty => exact .unchanged ⟨rfl, rfl, rfl, rfl, rfl, rfl, rfl⟩
  | byteTaken => exact .unchanged ⟨rfl, rfl, rfl, rfl, rfl, rfl, rfl⟩
  | asmError ts b rest e a _ _ hb => exact .unchanged (takeError_afterRound_sameRegisters hb)
  | frame ts b rest k p a _ hcheck _ hb ht => exact registerChange_of_frame hcheck hb (frameOutcome_of_exec ht)
  | host c ts _ hturn _ ht => exact registerChange_of_host hturn (hostOutcome_of_exec ht)

end Sys2Proof.Machine
end

section
/-! PROOFS. The statements about the state (10_state.md): the invariant, who writes the snapshot, the mode flag, the request and
the VALID bits, what RD reads after reset, and where the time input goes. -/

namespace Sys2Proof.Machine

open Sys2Proof

/-! ### The invariant at reset -/

/-- R72: the assembler after reset, whatever its windows and its low length byte hold. -/
theorem Asm.clear_inv (c : Instance) : Asm.clear.Inv c :=
  .of_idle c _ (.inl rfl) (Nat.zero_le _) (Nat.zero_le _) (Nat.zero_le _) nofun Memory.wf_nil nofun

theorem Asm.afterReset_inv (c : Instance) (n : Nat) : (Asm.afterReset n).Inv c :=
  .of_idle c _ (.inl rfl) (Nat.zero_le _) (Nat.zero_le _) (Nat.zero_le _) nofun Memory.wf_nil nofun

theorem Snapshot.empty_inv : Snapshot.empty.Inv := ⟨Nat.zero_le _, Nat.zero_le _⟩

theorem DeviceConfig.unknown_inv : DeviceConfig.unknown.Inv where
  thr_le := ⟨Nat.zero_le _, Nat.zero_le _⟩
  range_eq := rfl
  proto_zero _ := rfl
  fw_zero _ := ⟨rfl, rfl, rfl⟩
  mac_zero _ := rfl
  param_zero _ := ⟨rfl, rfl, rfl, rfl, rfl, rfl⟩

/-! ### What a step writes keeps the invariant -/

/-- R40: a committed snapshot's arrays hold at most nine entries, under every layout. -/
theorem Commits.inv {s : State} {p : List Byte} {v : Snapshot} (h : Commits s p v) : v.Inv := by
  have slice_le (i n : Nat) (hn : n ≤ gmax) : ((p.drop i).take n).length ≤ gmax :=
    (slice_length_le p i n).trans hn
  rcases h with ⟨-, rfl⟩ | ⟨-, rfl⟩ | ⟨-, rfl⟩ | ⟨-, rfl⟩
  · exact Snapshot.empty_inv
  · exact ⟨slice_le _ _ (gateCount_le s.cfg), slice_le _ _ (gateCount_le s.cfg)⟩
  · exact Snapshot.empty_inv
  · exact ⟨slice_le _ _ (Nat.min_le_right _ _), slice_le _ _ (Nat.min_le_right _ _)⟩

/-- R54: `RANGE` is the larger of the two maxima. -/
theorem maxGate_toNat (a b : Byte) : (maxGate a b).toNat = max a.toNat b.toNat := by
  unfold maxGate; split <;> omega

/-- R40, R54, R59: an effect sets a VALID bit together with the fields it guards, and writes the parameter group whole. -/
theorem ackEffect_cfg_inv {s : State} (p : List Byte) (c : Cmd) (h : s.cfg.Inv) : (ackEffect p c s).cfg.Inv := by
  cases c with
  | enterCfg => exact { h with proto_zero := nofun }
  | readMac => exact { h with mac_zero := nofun }
  | readFw => exact { h with fw_zero := nofun }
  | readRes => exact { h with }
  | readParams =>
    have hn : thresholdCount p ≤ gmax := Nat.min_le_right _ _
    exact { h with
      thr_le := ⟨(slice_length_le _ _ _).trans hn, (slice_length_le _ _ _).trans hn⟩
      range_eq := maxGate_toNat _ _
      param_zero := nofun }
  | _ => exact h

/-- A round keeps the invariant when the assembler it leaves meets its own. -/
theorem State.Inv.afterRound {s : State} (h : s.Inv) (rest : List Byte) (ts : List Turn) {a : Asm} (ha : a.Inv s.inst) :
    (afterRound s rest ts a []).Inv :=
  { h with asm := ha }

/-- R262, R260: a frame's outcome that reports an ACK also ends the request. -/
theorem FrameOutcome.inv {s t : State} {k : FrameKind} {p : List Byte} (h : FrameOutcome s k p t) (hs : s.Inv) : t.Inv := by
  cases h with
  | dropped e r _ hr =>
    exact { hs with ack_resolved := fun aid status he => by cases he; exact absurd rfl (hr aid status) }
  | committed v _ hv => exact { hs with snap := hv.inv, ack_resolved := nofun }
  | rejected => exact { hs with ack_resolved := fun _ _ _ => rfl }
  | accepted =>
    have hcfg := ackEffect_cfg_inv p s.pendCmd hs.cfg
    rw [ackEffect_frame p s.pendCmd s]
    exact { hs with cfg := hcfg, ack_resolved := fun _ _ _ => rfl }

/-- R310: the operation that makes a request pending replaces the result on the port. -/
theorem HostOutcome.inv {s t : State} {c : HostCall} (h : HostOutcome s c t) (hs : s.Inv) : t.Inv := by
  cases h with
  | reset =>
    exact ⟨hs.inst_wf, Asm.afterReset_inv _ _, Snapshot.empty_inv, DeviceConfig.unknown_inv, nofun⟩
  | check => exact { hs with ack_resolved := nofun }
  | answered r es hr _ => exact { hs with ack_resolved := fun aid status he => by cases he; exact absurd rfl (hr _) }
  | sent => exact { hs with ack_resolved := nofun }
  | expired => exact { hs with ack_resolved := nofun }

/-- Every turn keeps the invariant. -/
theorem StepTurn.inv {s t : State} (h : StepTurn s t) (hs : s.Inv) : t.Inv := by
  have hkeeps (b : Byte) : (byteStep s.inst b s.asm).Keeps s.inst := byteStep_keeps s.inst b s.asm hs.inst_wf hs.asm
  cases h with
  | environment => exact { hs with }
  | fifoEmpty => exact { hs with ack_resolved := nofun }
  | byteTaken ts b rest a _ _ hb =>
    have ha := hkeeps b
    rw [hb] at ha
    exact hs.afterRound rest ts ha
  | asmError ts b rest e a _ _ hb =>
    have ha := hkeeps b
    rw [hb] at ha
    rcases byteStep_error s.inst b s.asm a e hb with rfl | rfl <;> exact { hs with asm := ha }
  | frame ts b rest k p a _ _ _ hb ht =>
    have ha := hkeeps b
    rw [hb] at ha
    exact (frameOutcome_of_exec ht).inv (hs.afterRound rest ts ha.1)
  | host c ts _ _ _ ht => exact (hostOutcome_of_exec ht).inv { hs with }

/-! ### What an accepted Ack writes -/

/-- R263, R264: only the effects of ENTER_CFG and EXIT_CFG write `IN_CFG`. -/
theorem ackEffect_inCfg (p : List Byte) (c : Cmd) (s : State) :
    (ackEffect p c s).inCfg = (c == .enterCfg || c != .exitCfg && s.inCfg) := by
  cases c <;> rfl

/-- No Data register is written by an effect, and no request register. -/
theorem ackEffect_snap (p : List Byte) (c : Cmd) (s : State) : (ackEffect p c s).snap = s.snap := by rw [ackEffect_frame]

theorem ackEffect_pendCmd (p : List Byte) (c : Cmd) (s : State) : (ackEffect p c s).pendCmd = s.pendCmd := by
  rw [ackEffect_frame]

/-- Every VALID bit that is set in `d` is set in `d'` (R59). -/
def DeviceConfig.ValidKept (d d' : DeviceConfig) : Prop :=
  (d.protoValid = true → d'.protoValid = true) ∧ (d.fwValid = true → d'.fwValid = true) ∧
  (d.macValid = true → d'.macValid = true) ∧ (d.paramValid = true → d'.paramValid = true)

theorem DeviceConfig.ValidKept.refl (d : DeviceConfig) : d.ValidKept d := ⟨id, id, id, id⟩

/-- An effect sets VALID bits only. -/
theorem ackEffect_validKept (p : List Byte) (c : Cmd) (s : State) : s.cfg.ValidKept (ackEffect p c s).cfg := by
  cases c with
  | enterCfg => exact ⟨fun _ => rfl, id, id, id⟩
  | readFw => exact ⟨id, fun _ => rfl, id, id⟩
  | readMac => exact ⟨id, id, fun _ => rfl, id⟩
  | readParams => exact ⟨id, id, id, fun _ => rfl⟩
  | _ => exact ⟨id, id, id, id⟩

/-! ### RD after reset -/

/-- R306: an array of zeros reads 0 at every element index, inside and beyond its count. -/
theorem element_eq_zero {v : List Byte} (h : ∀ b ∈ v, b = 0) (g : Word32) : element v g = 0 := by
  have hget : v.getD g.toNat 0 = 0 := by
    rcases Nat.lt_or_ge g.toNat v.length with hlt | hge
    · rw [List.getD_eq_getElem v 0 hlt]; exact h _ (List.getElem_mem hlt)
    · exact List.getD_eq_default v 0 hge
  rw [element, hget]; rfl

/-- R60, R72: with the snapshot empty, the configuration unknown, the flags 0 and no request, every index reads 0. -/
theorem readReg_eq_zero {s : State} (hsnap : s.snap = .empty) (hcfg : s.cfg = .unknown) (hin : s.inCfg = false)
    (henh : s.enhanced = false) (hpv : s.pendValid = false) (hpc : s.pendCmd = .enterCfg) (i g : Word32) :
    s.readReg i g = 0 := by
  have harr : element [] g = 0 := element_eq_zero (by simp) g
  have hmac : element DeviceConfig.unknown.mac.toList g = 0 := element_eq_zero (by decide) g
  have hstate : s.cfgState = .idle := by simp [State.cfgState, hpv, hin]
  unfold State.readReg
  rw [hsnap, hcfg, hin, henh, hpv, hpc, hstate]
  split
  -- the four gate arrays (0x19, 0x1B, 0x2F, 0x31) and the MAC (0x27); every other index reads a register
  case h_10 | h_12 | h_28 | h_30 => exact harr
  case h_20 => exact hmac
  all_goals rfl

/-! ### The time input -/

/-- The second state is the first but for the time input and `TS` (R45, R71). -/
def SameButTime (t u : State) : Prop := { t with timeNow := u.timeNow, snap := { t.snap with ts := u.snap.ts } } = u

/-- The state with another value on the time input. -/
def State.withTime (s : State) (now : Word32) : State := { s with timeNow := now }

/-- The two outcomes stop alike, or their next states are the same but for the time input and `TS`. -/
def TimeAgrees : Host.Outcome State Fault Refusal → Host.Outcome State Fault Refusal → Prop := OutcomesRelated SameButTime

/-- A branch on a condition that does not read the time input. -/
theorem TimeAgrees.ite {c : Prop} [Decidable c] {o o' u u' : Host.Outcome State Fault Refusal} (h : TimeAgrees o u)
    (h' : TimeAgrees o' u') : TimeAgrees (if c then o else o') (if c then u else u') := by
  split
  · exact h
  · exact h'

/-- Discarding a frame leaves the time input as it stands. -/
theorem discard_timeAgrees (s : State) (now : Word32) (e : Event) :
    TimeAgrees (.next (s.discard e)) (.next ((s.withTime now).discard e)) := by cases e <;> rfl

section
variable (s : State) (now : Word32) (p : List Byte) (k : State → Host.Outcome State Fault Refusal)

/-! A Data row's checks do not read the time input. -/

theorem unlessBlocked_timeAgrees (h : TimeAgrees (k s) (k (s.withTime now))) :
    TimeAgrees (unlessBlocked s k) (unlessBlocked (s.withTime now) k) :=
  TimeAgrees.ite (discard_timeAgrees s now _) h

theorem needBytes_timeAgrees (n : Nat) (k' : State → Host.Outcome State Fault Refusal)
    (h : TimeAgrees (k s) (k' (s.withTime now))) :
    TimeAgrees (needBytes n p s k) (needBytes n p (s.withTime now) k') :=
  TimeAgrees.ite (discard_timeAgrees s now _) h

theorem needMarker_timeAgrees (h : TimeAgrees (k s) (k (s.withTime now))) :
    TimeAgrees (needMarker p s k) (needMarker p (s.withTime now) k) :=
  needBytes_timeAgrees s now p _ 2 _ (TimeAgrees.ite (discard_timeAgrees s now _) h)

/-- R45, R236: of a Data frame the time reaches `TS` alone, and neither a check nor another field. -/
theorem exec_selectData_timeAgrees (x : DecodeCtx) :
    TimeAgrees (exec (selectData x p) s) (exec (selectData x p) (s.withTime now)) := by
  rcases selectData_cases x p with hsel | hsel | hsel | hsel | hsel | hsel <;> rw [hsel]
  · show TimeAgrees (execDataReservedSubtype p s) (execDataReservedSubtype p (s.withTime now))
    exact needBytes_timeAgrees s now p _ 1 _ (discard_timeAgrees s now _)
  · show TimeAgrees (execDataBadMarkerVendor p s) (execDataBadMarkerVendor p (s.withTime now))
    exact unlessBlocked_timeAgrees s now _ (needBytes_timeAgrees s now p _ 2 _ (discard_timeAgrees s now _))
  · show TimeAgrees (execDataBasic p s) (execDataBasic p (s.withTime now))
    exact unlessBlocked_timeAgrees s now _ (needBytes_timeAgrees s now p _ 10 _ rfl)
  · show TimeAgrees (execDataEnhanced p s) (execDataEnhanced p (s.withTime now))
    exact unlessBlocked_timeAgrees s now _ (needBytes_timeAgrees s now p _ (10 + 2 * gateCount s.cfg) _ rfl)
  · show TimeAgrees (execDataBasicVendor p s) (execDataBasicVendor p (s.withTime now))
    exact unlessBlocked_timeAgrees s now _ (needMarker_timeAgrees s now p _ (needBytes_timeAgrees s now p _ 11 _ rfl))
  · show TimeAgrees (execDataEnhancedVendor p s) (execDataEnhancedVendor p (s.withTime now))
    exact unlessBlocked_timeAgrees s now _ (needMarker_timeAgrees s now p _ (needBytes_timeAgrees s now p _ 13 _
      (needBytes_timeAgrees s now p _ (15 + vendorMm p + vendorMs p) _ rfl)))

/-- No effect reads or writes the time input. -/
theorem ackEffect_withTime (p : List Byte) (c : Cmd) (s : State) (now : Word32) :
    ackEffect p c (s.withTime now) = (ackEffect p c s).withTime now := by cases c <;> rfl

/-- No Ack row reads the time input. -/
theorem exec_selectAck_timeAgrees (x : DecodeCtx) :
    TimeAgrees (exec (selectAck x p) s) (exec (selectAck x p) (s.withTime now)) := by
  rcases selectAck_cases x p with hsel | ⟨c, -, -, -, hsel⟩ <;> rw [hsel]
  · exact TimeAgrees.ite (discard_timeAgrees s now _) rfl
  · rw [exec_ackInstr, exec_ackInstr, acceptAck, acceptAck, ackEffect_withTime]
    exact TimeAgrees.ite rfl (TimeAgrees.ite (discard_timeAgrees s now _) rfl)

theorem exec_selectRow_timeAgrees (x : DecodeCtx) (k : FrameKind) :
    TimeAgrees (exec (selectRow x k p) s) (exec (selectRow x k p) (s.withTime now)) := by
  cases k with
  | data => exact exec_selectData_timeAgrees s now p x
  | ack => exact exec_selectAck_timeAgrees s now p x

end

/-- TIMEOUT as a choice between two outcomes. -/
theorem exec_timeout_eq (s : State) : exec .timeout s =
    if s.pendValid = true then .next ((s.takeError .commandTimeout).endOp .done) else .next (s.endOp .done) := by
  show execTimeout s = _
  unfold execTimeout
  split <;> rfl

/-- No host operation reads the time input: RD has no index for it (R60, R71). -/
theorem exec_decodeCall_timeAgrees (s : State) (now : Word32) (c : HostCall) :
    TimeAgrees (exec (decodeCall c) s) (exec (decodeCall c) (s.withTime now)) := by
  rcases decodeCall_cases c with hc | hc | ⟨cmd, hc⟩ | hc | hc | hc | hc | hc | hc <;> rw [hc]
  case inr.inr.inl =>
    rw [exec_txInstr, exec_txInstr]
    exact TimeAgrees.ite rfl (TimeAgrees.ite rfl rfl)
  case inr.inr.inr.inr.inl =>
    rw [exec_timeout_eq, exec_timeout_eq]
    exact TimeAgrees.ite rfl rfl
  all_goals rfl

/-- The outcome of a step that fetched `f`. -/
def Fetched.run : Fetched → Host.Outcome State Fault Refusal
  | .quiet t => .next t
  | .instr i t => exec i t
  | .fault f => .fault f
  | .refuse r => .refused r

theorem step_eq_run (s : State) : step s = (fetch s).run := rfl

/-- What is fetched runs alike, but for the time. -/
def FetchAgrees (f g : Fetched) : Prop := TimeAgrees f.run g.run

theorem FetchAgrees.ite {c : Prop} [Decidable c] {f f' g g' : Fetched} (h : FetchAgrees f g) (h' : FetchAgrees f' g') :
    FetchAgrees (if c then f else f') (if c then g else g') := by
  split
  · exact h
  · exact h'

/-- A byte step does not read the time input (40_assembler.md R160), so a round takes the same byte the same way. -/
theorem engineTurn_timeAgrees (s : State) (now : Word32) :
    FetchAgrees (engineTurn s) (engineTurn (s.withTime now)) := by
  obtain ⟨inst, asm, snap, cfg, inCfg, enhanced, pendValid, pendCmd, checking, rx, tx, time, turns, draws, result,
    events⟩ := s
  cases rx with
  | nil => rfl
  | cons b rest =>
    unfold engineTurn
    dsimp only [State.withTime]
    cases byteStep inst b asm with
    | none a => rfl
    | error e a => cases e <;> rfl
    | complete k p a => exact exec_selectRow_timeAgrees _ now p _ k
    | fault f => rfl

/-- The turn that is next does not depend on the time input. -/
theorem fetch_timeAgrees (s : State) (now : Word32) : FetchAgrees (fetch s) (fetch (s.withTime now)) := by
  obtain ⟨inst, asm, snap, cfg, inCfg, enhanced, pendValid, pendCmd, checking, rx, tx, time, turns, draws, result,
    events⟩ := s
  refine FetchAgrees.ite rfl ?_
  cases turns with
  | nil => exact FetchAgrees.ite (engineTurn_timeAgrees _ now) rfl
  | cons u ts =>
    cases u with
    | host c => exact FetchAgrees.ite rfl (exec_decodeCall_timeAgrees _ now c)
    | engine => exact FetchAgrees.ite (engineTurn_timeAgrees _ now) rfl
    | await => exact FetchAgrees.ite (engineTurn_timeAgrees _ now) rfl
    | transport bs => rfl
    | drain n => rfl
    | clock t => rfl

/-! ### The obligations -/

/-- Settles O51: the byte step keeps the assembler's invariant, and every outcome of a frame or a host call keeps the rest. -/
theorem invariantKeptByEveryStep : Obligations.InvariantKeptByEveryStep :=
  fun _ _ hs h => (stepTurn_of_step h).inv hs

/-- Settles O50, part by part. -/
theorem invariantAtReset : Obligations.InvariantAtReset where
  inst_wf := by decide
  asm := Asm.clear_inv _
  snap := Snapshot.empty_inv
  cfg := DeviceConfig.unknown_inv
  ack_resolved := nofun

/-- Settles O28: of the ways in which a step changes the registers, only a commit and RESET touch the snapshot. -/
theorem snapshotWrittenOnlyByCommitAndReset : Obligations.SnapshotWrittenOnlyByCommitAndReset := by
  unfold Obligations.SnapshotWrittenOnlyByCommitAndReset
  intro s t h
  cases registerChange_of_step h with
  | unchanged h => exact .inl h.snap
  | committed _ hcheck hdone hres hstate hkind p hp hv =>
    exact .inr (.inl ⟨hcheck, hdone, hres, hstate, hkind, p, hp, hv⟩)
  | rejected h => exact .inl h.snap
  | accepted p h => exact .inl (h.snap.trans (ackEffect_snap p s.pendCmd s))
  | reset h c ts hturn hc => exact .inr (.inr ⟨c, ts, hturn, hc, h.snap⟩)
  | sent h => exact .inl h.snap
  | expired h => exact .inl h.snap

/-- Settles O44: RESET leaves every register that RD names as the state after reset has it. -/
theorem everyRegisterReadsZeroAfterReset : Obligations.EveryRegisterReadsZeroAfterReset := by
  unfold Obligations.EveryRegisterReadsZeroAfterReset
  constructor
  · exact readReg_eq_zero rfl rfl rfl rfl rfl rfl
  · intro s t h
    cases h
    exact readReg_eq_zero rfl rfl rfl rfl rfl rfl

/-- A flag that a step keeps neither rises nor falls. -/
theorem no_edge_of_kept {b b' : Bool} (h : b' = b) {P Q : Prop} :
    (b = false → b' = true → P) ∧ (b = true → b' = false → Q) := by
  subst h
  exact ⟨fun hf ht => absurd (hf.symm.trans ht) Bool.false_ne_true,
    fun ht hf => absurd (hf.symm.trans ht) Bool.false_ne_true⟩

/-- Settles O53: an effect writes `IN_CFG` only for the two mode commands, and the command is the pending one. -/
theorem configModeEnteredAndLeftOnlyAsStated : Obligations.ConfigModeEnteredAndLeftOnlyAsStated := by
  unfold Obligations.ConfigModeEnteredAndLeftOnlyAsStated
  refine ⟨rfl, fun s t h => ?_⟩
  cases registerChange_of_step h with
  | unchanged h => exact no_edge_of_kept h.inCfg
  | committed h => exact no_edge_of_kept h.inCfg
  | rejected h => exact no_edge_of_kept h.inCfg
  | accepted p h hcheck hpend hres =>
    have hin : t.inCfg = (s.pendCmd == .enterCfg || s.pendCmd != .exitCfg && s.inCfg) :=
      h.inCfg.trans (ackEffect_inCfg p s.pendCmd s)
    constructor
    · intro hf ht
      have hcmd : s.pendCmd = .enterCfg := by simpa [hf, ht] using hin
      exact ⟨hcheck, hpend, hcmd, hcmd ▸ hres⟩
    · intro ht hf
      have hcmd : s.pendCmd ≠ .enterCfg ∧ s.pendCmd = .exitCfg := by simpa [hf, ht] using hin
      exact .inl ⟨hcheck, hpend, hcmd.2, hcmd.2 ▸ hres⟩
  | reset h c ts hturn hc =>
    have hleft : t.inCfg = false := h.inCfg
    exact ⟨fun _ ht => absurd (hleft.symm.trans ht) Bool.false_ne_true, fun _ _ => .inr ⟨c, ts, hturn, .inl hc⟩⟩
  | sent h => exact no_edge_of_kept h.inCfg
  | expired h c ts hturn hc hpend =>
    have hin : t.inCfg = (s.inCfg && !(s.pendValid && s.pendCmd == .exitCfg)) := h.inCfg
    constructor
    · intro hf ht
      simp [hf, ht] at hin
    · intro ht hf
      have hcmd : s.pendCmd = .exitCfg := by simpa [hf, ht, hpend] using hin
      exact .inr ⟨c, ts, hturn, .inr ⟨hc, hpend, hcmd⟩⟩

/-- Settles O54: of the ways in which a step changes the registers, SENT alone begins a request, and an Ack of the pending
command, TIMEOUT and RESET end it. -/
theorem requestSetAndClearedOnlyAsStated : Obligations.RequestSetAndClearedOnlyAsStated := by
  unfold Obligations.RequestSetAndClearedOnlyAsStated
  refine ⟨rfl, rfl, fun s t h => ?_⟩
  have never_set {P : Prop} (hf : t.pendValid = false) (_ : s.pendValid = false) (ht : t.pendValid = true) : P :=
    absurd (hf.symm.trans ht) Bool.false_ne_true
  cases registerChange_of_step h with
  | unchanged h => exact and_assoc.mp ⟨no_edge_of_kept h.pendValid, .inl h.pendCmd⟩
  | committed h => exact and_assoc.mp ⟨no_edge_of_kept h.pendValid, .inl h.pendCmd⟩
  | rejected h hcheck status hres =>
    exact ⟨never_set h.pendValid, fun _ _ => .inl ⟨hcheck, status, hres⟩, .inl h.pendCmd⟩
  | accepted p h hcheck _ hres =>
    have hcmd : t.pendCmd = s.pendCmd := h.pendCmd.trans (ackEffect_pendCmd p s.pendCmd s)
    exact ⟨never_set h.pendValid, fun _ _ => .inl ⟨hcheck, 0, hres⟩, .inl hcmd⟩
  | reset h c ts hturn hc =>
    exact ⟨never_set h.pendValid, fun _ _ => .inr ⟨c, ts, hturn, .inl hc⟩, .inr (.inr ⟨c, ts, hturn, hc, h.pendCmd⟩)⟩
  | sent h c ts a b d hturn hc hpend hres =>
    have hset : t.pendValid = true := h.pendValid
    exact ⟨fun _ _ => ⟨hres, c, ts, a, b, d, hturn, hc⟩, fun _ hf => absurd (hf.symm.trans hset) Bool.false_ne_true,
      .inr (.inl ⟨hpend, hset⟩)⟩
  | expired h c ts hturn hc =>
    exact ⟨never_set h.pendValid, fun _ _ => .inr ⟨c, ts, hturn, .inr hc⟩, .inl h.pendCmd⟩

/-- Settles O55: only an accepted Ack and RESET write the configuration, and an effect sets VALID bits only. -/
theorem validBitsArePermanent : Obligations.ValidBitsArePermanent := by
  unfold Obligations.ValidBitsArePermanent
  intro s t h hno
  have of_eq {d : DeviceConfig} (hcfg : t.cfg = d) (hkept : s.cfg.ValidKept d) : s.cfg.ValidKept t.cfg :=
    hcfg ▸ hkept
  cases registerChange_of_step h with
  | unchanged h => exact of_eq h.cfg (.refl s.cfg)
  | committed h => exact of_eq h.cfg (.refl s.cfg)
  | rejected h => exact of_eq h.cfg (.refl s.cfg)
  | accepted p h => exact of_eq h.cfg (ackEffect_validKept p s.pendCmd s)
  | reset _ c ts hturn hc => exact absurd hc (hno c ts hturn)
  | sent h => exact of_eq h.cfg (.refl s.cfg)
  | expired h => exact of_eq h.cfg (.refl s.cfg)

/-- Settles O59: neither the fetch nor any meaning reads the time input, except that a commit copies it to `TS`. -/
theorem timeReachesOnlyTheTimestamp : Obligations.TimeReachesOnlyTheTimestamp := by
  unfold Obligations.TimeReachesOnlyTheTimestamp
  intro s now
  exact fetch_timeAgrees s now

end Sys2Proof.Machine
end

section
/-! PROOFS. The memory statements (20_memory.md): no step writes outside `PBUF` or reads an unwritten byte of it, and
the frame of the Ack rows. -/

namespace Sys2Proof.Machine

open Sys2Proof

/-! ### No fault under the invariant (R83, R84) -/

/-- R83, R84: the two accesses to `PBUF` that can fault stand in the byte step. -/
theorem byteStep_ne_fault {s : State} (hs : s.Inv) (b : Byte) (f : Fault) : byteStep s.inst b s.asm ≠ .fault f := by
  intro hb
  have hkeeps := byteStep_keeps s.inst b s.asm hs.inst_wf hs.asm
  rw [hb] at hkeeps
  exact hkeeps

/-- A round of a running CHECK faults only where its byte step does: the meaning of a completed frame always answers. -/
theorem engineTurn_run_ne_fault {s : State} (hs : s.Inv) (f : Fault) : (engineTurn s).run ≠ .fault f := by
  rcases engineTurn_cases s with ⟨-, he⟩ | ⟨b, rest, -, hround⟩
  · rw [he]; nofun
  · rcases hround with ⟨a, -, he⟩ | ⟨e, a, -, he⟩ | ⟨k, p, a, -, he⟩ | ⟨g, hb, -⟩
    · rw [he]; nofun
    · rw [he]; nofun
    · obtain ⟨t, ht, -⟩ := exec_selectRow_next s.ctx k p { s with rx := rest, asm := a }
      rw [he, Fetched.run, ht]; nofun
    · exact absurd hb (byteStep_ne_fault hs b g)

theorem transmit_ne_fault (c : Cmd) (q : List Byte) (s : State) (f : Fault) : transmit c q s ≠ .fault f := by
  rcases transmit_cases c q s with ⟨-, ho⟩ | ⟨-, -, -, ho⟩ | ⟨-, -, ho⟩ <;> rw [ho] <;> nofun

/-- No host operation reads or writes a byte of `PBUF`, so each answers or is refused, in every state. -/
theorem exec_decodeCall_ne_fault (c : HostCall) (s : State) (f : Fault) : exec (decodeCall c) s ≠ .fault f := by
  rcases decodeCall_cases c with hc | hc | ⟨cmd, hc⟩ | hc | hc | hc | hc | hc | hc <;> rw [hc]
  case inr.inr.inl => rw [exec_txInstr]; exact transmit_ne_fault cmd _ s f
  case inr.inr.inr.inr.inl => rw [exec_timeout_eq]; split <;> nofun
  all_goals nofun

/-- Settles O52: of the turns only a round of a running CHECK reaches `PBUF`, and its byte step keeps to the bytes that the
invariant places there. -/
theorem noStepFaults : Obligations.NoStepFaults := by
  unfold Obligations.NoStepFaults
  intro s hs f
  rw [step_eq_run]
  rcases fetch_cases s with ⟨-, hf⟩ | ⟨-, ⟨ts, -, -, hf⟩ | ⟨ts, -, -, hf⟩ | ⟨c, ts, -, -, hf⟩ |
      ⟨c, ts, -, -, hf⟩ | ⟨bs, ts, -, hf⟩ | ⟨n, ts, -, hf⟩ | ⟨now, ts, -, hf⟩⟩ <;> rw [hf]
  case inr.inl =>
    have hturned : (s.turned ts).Inv := { hs with }
    exact engineTurn_run_ne_fault hturned f
  case inr.inr.inr.inr.inl => exact exec_decodeCall_ne_fault c (s.turned ts) f
  all_goals nofun

/-! ### The frame of the Ack rows (43_ack_decoder.md R260 to R277) -/

/-- `d` with the register group of command `c` taken from `d'` (R263, R267 to R269, R271); the other commands have no group. -/
def DeviceConfig.withGroup (d d' : DeviceConfig) : Cmd → DeviceConfig
  | .enterCfg => { d with protoVer := d'.protoVer, protoValid := d'.protoValid }
  | .readMac => { d with mac := d'.mac, macValid := d'.macValid }
  | .readFw => { d with fwType := d'.fwType, fwMajor := d'.fwMajor, fwMinor := d'.fwMinor, fwValid := d'.fwValid }
  | .readRes => { d with res := d'.res }
  | .readParams => { d with
      maxMov := d'.maxMov, maxStat := d'.maxStat, range := d'.range, noone := d'.noone
      movThr := d'.movThr, statThr := d'.statThr, paramValid := d'.paramValid }
  | _ => d

theorem DeviceConfig.withGroup_self (d : DeviceConfig) (c : Cmd) : d.withGroup d c = d := by cases c <;> rfl

theorem DeviceConfig.withGroup_of_noGroup (d d' : DeviceConfig) {c : Cmd}
    (hc : c ∉ [Cmd.enterCfg, .readMac, .readFw, .readRes, .readParams]) : d.withGroup d' c = d := by
  cases c with
  | enterCfg | readMac | readFw | readRes | readParams => simp at hc
  | _ => rfl

/-- An effect writes its own command's group only. -/
theorem ackEffect_cfg (p : List Byte) (c : Cmd) (s : State) :
    (ackEffect p c s).cfg = s.cfg.withGroup (ackEffect p c s).cfg c := by cases c <;> rfl

/-- R265, R266: only the effects of ENH_ON and ENH_OFF write `ENHANCED`. -/
theorem ackEffect_enhanced (p : List Byte) (c : Cmd) (s : State) :
    (ackEffect p c s).enhanced = (c == .enhOn || c != .enhOff && s.enhanced) := by cases c <;> rfl

/-- Besides the request, the end of the CHECK and the ports, an Ack row writes nothing or its command's effect. -/
theorem exec_ackInstr_next {s t : State} {c : Cmd} {p : List Byte} (h : exec (ackInstr c p) s = .next t) :
    ∃ u, (u = s ∨ u = ackEffect p c s) ∧
      t = { u with pendValid := t.pendValid, checking := false, result := t.result, events := t.events } := by
  rw [exec_ackInstr] at h
  rcases acceptAck_cases c (ackEffect p c) p s with ⟨-, ho⟩ | ⟨-, -, ho⟩ | ⟨-, -, ho⟩ <;> cases h.symm.trans ho
  · exact ⟨s, .inl rfl, rfl⟩
  · exact ⟨s, .inl rfl, rfl⟩
  · exact ⟨ackEffect p c s, .inr rfl, rfl⟩

/-- What both ways of `exec_ackInstr_next` leave unchanged. -/
theorem frame_of_unchanged_or_ackEffect {s u : State} {c : Cmd} {p : List Byte} (hu : u = s ∨ u = ackEffect p c s) :
    u = { s with cfg := u.cfg, inCfg := u.inCfg, enhanced := u.enhanced } ∧
    (c ≠ .enterCfg → c ≠ .exitCfg → u.inCfg = s.inCfg) ∧ (c ≠ .enhOn → c ≠ .enhOff → u.enhanced = s.enhanced) ∧
    u.cfg = s.cfg.withGroup u.cfg c := by
  rcases hu with rfl | rfl
  · exact ⟨rfl, fun _ _ => rfl, fun _ _ => rfl, (u.cfg.withGroup_self c).symm⟩
  · exact ⟨ackEffect_frame p c s, fun henter hexit => by
      simp [ackEffect_inCfg, bne, beq_false_of_ne henter, beq_false_of_ne hexit],
      fun hon hoff => by
      simp [ackEffect_enhanced, bne, beq_false_of_ne hon, beq_false_of_ne hoff], ackEffect_cfg p c s⟩

/-- Settles O37: an Ack row writes at most its command's effect, and an effect writes its own command's registers. -/
theorem ackRowsChangeOnlyTheirRegisters : Obligations.AckRowsChangeOnlyTheirRegisters := by
  unfold Obligations.AckRowsChangeOnlyTheirRegisters
  intro s t c p h
  obtain ⟨u, hu, ht⟩ := exec_ackInstr_next h
  obtain ⟨hframe, hin, henh, hgroup⟩ := frame_of_unchanged_or_ackEffect hu
  have htframe : t = { s with
      cfg := t.cfg, inCfg := t.inCfg, enhanced := t.enhanced, pendValid := t.pendValid, checking := false
      result := t.result, events := t.events } := by
    rw [ht, hframe]
  have hcfg : t.cfg = s.cfg.withGroup t.cfg c := by rw [ht]; exact hgroup
  have hasm : t.asm = s.asm := by rw [htframe]
  refine ⟨htframe, fun a => by rw [hasm], ?_, ?_, ?_, ?_, ?_, ?_, ?_,
    fun hc => hcfg.trans (s.cfg.withGroup_of_noGroup _ hc)⟩
  · rw [ht]; exact hin
  · rw [ht]; exact henh
  all_goals rintro rfl; exact hcfg

end Sys2Proof.Machine
end

section
/-! PROOFS. The assembler on the frame that the encoder lays out (30_encoding.md R100, 40_assembler.md R160 to R172): what the
byte step answers in each state, and one law per field of the frame that says what stands in the assembler after it. -/

namespace Sys2Proof.Machine

open Sys2Proof

/-! ### Bytes taken without an answer -/

/-- Every byte step over `bs`, from `a` to `a'`, answers NONE and raises no error. -/
inductive TakesSilently (c : Instance) : List Byte → Asm → Asm → Prop
  | nil (a : Asm) : TakesSilently c [] a a
  | cons {b : Byte} {bs : List Byte} {a a₁ a' : Asm} (hb : byteStep c b a = .none a₁) (hbs : TakesSilently c bs a₁ a') :
      TakesSilently c (b :: bs) a a'

theorem TakesSilently.single {c : Instance} {b : Byte} {a a' : Asm} (hb : byteStep c b a = .none a') :
    TakesSilently c [b] a a' := .cons hb (.nil a')

theorem TakesSilently.append {c : Instance} {u v : List Byte} {a a₁ a' : Asm} (hu : TakesSilently c u a a₁)
    (hv : TakesSilently c v a₁ a') : TakesSilently c (u ++ v) a a' := by
  induction hu with
  | nil => exact hv
  | cons hb _ ih => exact .cons hb (ih hv)

/-- The byte steps over `bs`, from `a` to `a'`, answer NONE up to the last, which completes the frame of family `k` with
payload `p`. -/
inductive CompletesFrame (c : Instance) (k : FrameKind) (p : List Byte) : List Byte → Asm → Asm → Prop
  | last {b : Byte} {a a' : Asm} (hb : byteStep c b a = .complete k p a') : CompletesFrame c k p [b] a a'
  | cons {b : Byte} {bs : List Byte} {a a₁ a' : Asm} (hb : byteStep c b a = .none a₁)
      (hbs : CompletesFrame c k p bs a₁ a') : CompletesFrame c k p (b :: bs) a a'

theorem TakesSilently.completes {c : Instance} {k : FrameKind} {p u v : List Byte} {a a₁ a' : Asm}
    (hu : TakesSilently c u a a₁) (hv : CompletesFrame c k p v a₁ a') : CompletesFrame c k p (u ++ v) a a' := by
  induction hu with
  | nil => exact hv
  | cons hb _ ih => exact .cons hb (ih hv)

/-- R174: the assembler over the bytes that complete a frame completes that frame and no other. -/
theorem CompletesFrame.assemble_eq {c : Instance} {k : FrameKind} {p bs : List Byte} {a a' : Asm}
    (h : CompletesFrame c k p bs a a') : assemble c bs a = .done [(k, p)] a' := by
  induction h with
  | last hb => simp only [assemble, hb]
  | cons hb _ ih => simp only [assemble, hb, ih]

/-! ### The byte step per state -/

section
variable (c : Instance) {a : Asm} (b : Byte)

/-- R161: a byte that leaves the window short of four bytes only enters it. -/
theorem byteStep_seek_short (hs : a.state = .seekHeader) (hw : a.wn < 3) :
    byteStep c b a = .none { a with win := windowSet a.win a.wn b, wn := a.wn + 1 } := by
  simp only [byteStep, hs, seekStep, if_pos (Nat.lt_succ_of_lt hw)]
  rw [Asm.headerTest_short _ (Nat.ne_of_lt (Nat.succ_lt_succ hw))]

/-- R162: the byte that fills the window with a header magic opens a frame of its family. -/
theorem byteStep_seek_header {k : FrameKind} (hs : a.state = .seekHeader) (hw : a.wn = 3)
    (hk : headerOf { a.win with b3 := b } = some k) :
    byteStep c b a =
      .none { a with win := { a.win with b3 := b }, kind := k, state := .readLength, wn := 0, ln := 0 } := by
  simp only [byteStep, hs, seekStep, hw, windowSet]
  rw [if_pos (by decide), Asm.headerTest_some _ k rfl hk]

/-- R164: the low length byte waits for the high one. -/
theorem byteStep_length_low (hs : a.state = .readLength) (hl : a.ln = 0) :
    byteStep c b a = .none { a with lb := b, ln := 1 } := by
  simp [byteStep, hs, lengthStep, hl]

/-- R165, R167: the high length byte of a length within `LMAX` is accepted. -/
theorem byteStep_length_high (hs : a.state = .readLength) (hl : a.ln = 1) (hlen : (le16 [a.lb, b] 0).toNat ≤ c.lmax) :
    byteStep c b a = .none (acceptLength { a with len := le16 [a.lb, b] 0, ln := 0 }) := by
  simp [byteStep, hs, lengthStep, hl, Nat.not_lt.mpr hlen]

/-- R168: a payload byte within `CAP` is appended, and the last one leads to READ_TAIL. -/
theorem byteStep_payload (hs : a.state = .readPayload) (hp : a.plen.toNat < c.cap) :
    byteStep c b a = .none
      (let a' := { a with pbuf := a.pbuf.write a.plen.toNat b, plen := a.plen + 1 }
       if a'.plen = a'.len then { a' with state := .readTail, tn := 0 } else a') := by
  simp only [byteStep, hs, payloadStep, if_neg (Nat.not_le.mpr hp)]

/-- R169: a tail byte before the fourth is only collected. -/
theorem byteStep_tail_short (hs : a.state = .readTail) (ht : a.tn < 3) :
    byteStep c b a = .none { a with twin := windowSet a.twin a.tn b, tn := a.tn + 1 } := by
  simp only [byteStep, hs, tailStep, if_pos (Nat.succ_lt_succ ht)]

/-- R170: the fourth tail byte of the family's own tail completes the frame. -/
theorem byteStep_tail_complete {p : List Byte} (hs : a.state = .readTail) (ht : a.tn = 3)
    (htail : { a.twin with b3 := b } = tailMagic a.kind) (hp : a.pbuf.readFirst a.plen.toNat = some p) :
    byteStep c b a = .complete a.kind p
      { a with twin := { a.twin with b3 := b }, tn := 0, state := .seekHeader, wn := 0 } := by
  simp only [byteStep, hs, tailStep, ht, windowSet, if_neg (Nat.lt_irrefl 4), if_pos htail, hp]

end

/-! ### The fields of a frame -/

/-- The assembler in SEEK_HEADER with the bytes `u` in its window, short of four. -/
structure Asm.Seeks (u : List Byte) (a : Asm) : Prop where
  state : a.state = .seekHeader
  wn : a.wn = u.length
  win : a.win.toList.take u.length = u

/-- The assembler in READ_LENGTH of a frame of family `k`, with no length byte yet. -/
structure Asm.AwaitsLength (k : FrameKind) (a : Asm) : Prop where
  state : a.state = .readLength
  kind : a.kind = k
  ln : a.ln = 0

/-- The assembler in READ_PAYLOAD of a frame of family `k`, with the bytes `q` collected and `n` bytes to come. -/
structure Asm.AwaitsPayload (k : FrameKind) (q : List Byte) (n : Nat) (a : Asm) : Prop where
  state : a.state = .readPayload
  kind : a.kind = k
  plen : a.plen.toNat = q.length
  len : a.len.toNat = q.length + n
  pbuf : a.pbuf.readFirst q.length = some q

/-- The assembler in READ_TAIL of a frame of family `k` with payload `p`, with the tail bytes `u` collected. -/
structure Asm.AwaitsTail (k : FrameKind) (p u : List Byte) (a : Asm) : Prop where
  state : a.state = .readTail
  kind : a.kind = k
  pbuf : a.pbuf.readFirst a.plen.toNat = some p
  tn : a.tn = u.length
  twin : a.twin.toList.take u.length = u

/-- Writing byte `n` of a window extends its first `n` bytes. -/
theorem take_windowSet {q : Quad} {u : List Byte} (b : Byte) (hu : u.length < 4) (hq : q.toList.take u.length = u) :
    (windowSet q u.length b).toList.take (u ++ [b]).length = u ++ [b] := by
  rw [List.length_append]
  conv_rhs => rw [← hq]
  generalize u.length = n at hu
  match n, hu with
  | 0, _ | 1, _ | 2, _ | 3, _ => rfl

/-- A window whose first three bytes are those of a quad equals it once the fourth is written. -/
theorem eq_of_take_three {q r : Quad} (h : q.toList.take 3 = [r.b0, r.b1, r.b2]) : { q with b3 := r.b3 } = r := by
  obtain ⟨h0, h1, h2⟩ : q.b0 = r.b0 ∧ q.b1 = r.b1 ∧ q.b2 = r.b2 := by simpa [Quad.toList] using h
  simp only [h0, h1, h2]

section
variable {c : Instance} {k : FrameKind}

/-- R161: a byte before the fourth enters the window. -/
theorem Asm.Seeks.step {a : Asm} {u : List Byte} (ha : a.Seeks u) (b : Byte) (hu : u.length < 3) :
    ∃ a', byteStep c b a = .none a' ∧ a'.Seeks (u ++ [b]) := by
  obtain ⟨hs, hw, hwin⟩ := ha
  refine ⟨_, byteStep_seek_short c b hs (by omega), hs, ?_, ?_⟩
  · simp [hw]
  · rw [hw]; exact take_windowSet b (by omega) hwin

/-- R161, R162: from an empty window the header magic leads to READ_LENGTH of its family. -/
theorem headerMagic_takesSilently {a : Asm} (hs : a.state = .seekHeader) (hw : a.wn = 0) :
    ∃ a', TakesSilently c (headerMagic k).toList a a' ∧ a'.AwaitsLength k := by
  have ha : a.Seeks [] := ⟨hs, hw, rfl⟩
  obtain ⟨a₁, h₀, ha₁⟩ := ha.step (c := c) (headerMagic k).b0 (by simp)
  obtain ⟨a₂, h₁, ha₂⟩ := ha₁.step (c := c) (headerMagic k).b1 (by simp)
  obtain ⟨a₃, h₂, ha₃⟩ := ha₂.step (c := c) (headerMagic k).b2 (by simp)
  have hmagic : headerOf { a₃.win with b3 := (headerMagic k).b3 } = some k := by
    rw [eq_of_take_three ha₃.win, headerOf_headerMagic]
  have h₃ := byteStep_seek_header c _ ha₃.state ha₃.wn hmagic
  exact ⟨_, .cons h₀ (.cons h₁ (.cons h₂ (.single h₃))), rfl, rfl, rfl⟩

/-- R164, R165, R167: the two length bytes of a length within `LMAX` are accepted. -/
theorem lengthBytes_takesSilently {a : Asm} {v : Word16} (ha : a.AwaitsLength k) (hv : v.toNat ≤ c.lmax) :
    TakesSilently c (bytes16 v) a (acceptLength { a with lb := v.extractLsb' 0 8, len := v, ln := 0 }) := by
  have hle : le16 [v.extractLsb' 0 8, v.extractLsb' 8 8] 0 = v := le16_bytes16 v []
  refine .cons (byteStep_length_low c _ ha.state ha.ln) (.single ?_)
  have hhigh := byteStep_length_high c (a := { a with lb := v.extractLsb' 0 8, ln := 1 }) (v.extractLsb' 8 8) ha.state rfl
    (by rw [hle]; exact hv)
  rwa [hle] at hhigh

/-- R168: one payload byte that is not the last. -/
theorem payloadByte_awaitsPayload {a : Asm} {q : List Byte} {n : Nat} (b : Byte) (hcap : q.length + (n + 2) ≤ c.cap)
    (ha : a.AwaitsPayload k q (n + 2)) : ∃ a', byteStep c b a = .none a' ∧ a'.AwaitsPayload k (q ++ [b]) (n + 1) := by
  have hplen := ha.plen
  have hlen := ha.len
  have hnext : (a.plen + 1).toNat = a.plen.toNat + 1 := by
    have hlt := a.len.isLt
    simp [BitVec.toNat_add]; omega
  have hne : a.plen + 1 ≠ a.len := fun he => by
    have heq := congrArg BitVec.toNat he
    omega
  refine ⟨_, byteStep_payload c b ha.state (by omega), ?_⟩
  rw [if_neg hne]
  refine ⟨ha.state, ha.kind, ?_, by simp [hlen]; omega, ?_⟩
  · rw [hnext, hplen, List.length_append]; rfl
  · rw [hplen, List.length_append]
    exact Memory.readFirst_append a.pbuf q.length b q ha.pbuf

/-- R168: the last payload byte. -/
theorem payloadByte_awaitsTail {a : Asm} {q : List Byte} (b : Byte) (hcap : q.length + 1 ≤ c.cap)
    (ha : a.AwaitsPayload k q 1) : ∃ a', byteStep c b a = .none a' ∧ a'.AwaitsTail k (q ++ [b]) [] := by
  have hplen := ha.plen
  have hlen := ha.len
  have hnext : a.plen + 1 = a.len := by
    have hlt := a.len.isLt
    apply BitVec.eq_of_toNat_eq
    simp [BitVec.toNat_add]; omega
  refine ⟨_, byteStep_payload c b ha.state (by omega), ?_⟩
  rw [if_pos hnext]
  refine ⟨rfl, ha.kind, ?_, rfl, rfl⟩
  simp only [hnext, hplen, hlen]
  exact Memory.readFirst_append a.pbuf q.length b q ha.pbuf

/-- R168: all the payload bytes to come, at least one, lead to READ_TAIL with the whole payload in `PBUF`. -/
theorem payload_takesSilently (b : Byte) (p q : List Byte) {a : Asm} (hcap : q.length + (p.length + 1) ≤ c.cap)
    (ha : a.AwaitsPayload k q (p.length + 1)) : ∃ a', TakesSilently c (b :: p) a a' ∧ a'.AwaitsTail k (q ++ b :: p) [] := by
  induction p generalizing b q a with
  | nil =>
    obtain ⟨a', hb, ha'⟩ := payloadByte_awaitsTail b hcap ha
    exact ⟨a', .single hb, ha'⟩
  | cons d p ih =>
    obtain ⟨a₁, hb, ha₁⟩ := payloadByte_awaitsPayload b hcap ha
    obtain ⟨a', hbs, ha'⟩ := ih d (q ++ [b]) (by simp at hcap ⊢; omega) ha₁
    exact ⟨a', .cons hb hbs, by simpa using ha'⟩

/-- R164 to R168: the length field and the payload lead to READ_TAIL with the payload in `PBUF`; an empty payload is passed over. -/
theorem lengthAndPayload_takesSilently {a : Asm} {p : List Byte} (hc : c.wf = true) (hp : p.length ≤ c.lmax)
    (ha : a.AwaitsLength k) :
    ∃ a', TakesSilently c (bytes16 (BitVec.ofNat 16 p.length) ++ p) a a' ∧ a'.AwaitsTail k p [] := by
  obtain ⟨-, hcap, -, -⟩ := of_decide_eq_true hc
  have hle : p.length ≤ c.cap := hp.trans (Nat.sub_le _ _)
  have hv : (BitVec.ofNat 16 p.length).toNat = p.length := by simp; omega
  have hlength := lengthBytes_takesSilently ha (hv.trans_le hp)
  cases p with
  | nil => exact ⟨_, hlength.append (.nil _), rfl, ha.kind, rfl, rfl, rfl⟩
  | cons b p =>
    have hne : BitVec.ofNat 16 (b :: p).length ≠ 0 := fun h0 => by
      rw [h0] at hv; simp at hv
    obtain ⟨a', hpayload, ha'⟩ := payload_takesSilently (c := c) (k := k) b p []
      (a := acceptLength { a with
        lb := (BitVec.ofNat 16 (b :: p).length).extractLsb' 0 8, len := BitVec.ofNat 16 (b :: p).length, ln := 0 })
      (by simpa using hle) ⟨if_neg hne, ha.kind, rfl, by simpa [acceptLength] using hv, rfl⟩
    exact ⟨a', hlength.append hpayload, ha'⟩

/-- R169: a tail byte before the fourth is collected. -/
theorem Asm.AwaitsTail.step {a : Asm} {p u : List Byte} (ha : a.AwaitsTail k p u) (b : Byte) (hu : u.length < 3) :
    ∃ a', byteStep c b a = .none a' ∧ a'.AwaitsTail k p (u ++ [b]) := by
  obtain ⟨hs, hkind, hp, ht, htwin⟩ := ha
  refine ⟨_, byteStep_tail_short c b hs (by omega), hs, hkind, hp, ?_, ?_⟩
  · simp [ht]
  · rw [ht]; exact take_windowSet b (by omega) htwin

/-- R169, R170: the family's tail is collected, and its fourth byte completes the frame. -/
theorem tailMagic_completes {a : Asm} {p : List Byte} (ha : a.AwaitsTail k p []) :
    ∃ a', CompletesFrame c k p (tailMagic k).toList a a' ∧ a'.state = .seekHeader ∧ a'.wn = 0 := by
  obtain ⟨a₁, h₀, ha₁⟩ := ha.step (c := c) (tailMagic k).b0 (by simp)
  obtain ⟨a₂, h₁, ha₂⟩ := ha₁.step (c := c) (tailMagic k).b1 (by simp)
  obtain ⟨a₃, h₂, hs, rfl, hp, ht, htwin⟩ := ha₂.step (c := c) (tailMagic k).b2 (by simp)
  have h₃ := byteStep_tail_complete c _ hs ht (eq_of_take_three htwin) hp
  exact ⟨_, .cons h₀ (.cons h₁ (.cons h₂ (.last h₃))), rfl, rfl⟩

/-- From READ_LENGTH of its family the rest of a frame completes at its last byte (R164 to R170). -/
theorem frameBody_completes {a : Asm} {p : List Byte} (hc : c.wf = true) (hp : p.length ≤ c.lmax) (ha : a.AwaitsLength k) :
    ∃ a', CompletesFrame c k p (bytes16 (BitVec.ofNat 16 p.length) ++ p ++ (tailMagic k).toList) a a' ∧
      a'.state = .seekHeader ∧ a'.wn = 0 := by
  obtain ⟨a₁, hbody, ha₁⟩ := lengthAndPayload_takesSilently hc hp ha
  obtain ⟨a', htail, hidle⟩ := tailMagic_completes ha₁
  exact ⟨a', hbody.completes htail, hidle⟩

/-- From SEEK_HEADER with an empty window a frame completes at its last byte (R160 to R170). -/
theorem frameBytes_completes {a : Asm} {p : List Byte} (hc : c.wf = true) (hp : p.length ≤ c.lmax)
    (hs : a.state = .seekHeader) (hw : a.wn = 0) :
    ∃ a', CompletesFrame c k p (frameBytes k p) a a' ∧ a'.state = .seekHeader ∧ a'.wn = 0 := by
  obtain ⟨a₁, hheader, ha₁⟩ := headerMagic_takesSilently hs hw
  obtain ⟨a', hbody, hidle⟩ := frameBody_completes hc hp ha₁
  refine ⟨a', ?_, hidle⟩
  rw [frameBytes, List.append_assoc, List.append_assoc, ← List.append_assoc (bytes16 _)]
  exact hheader.completes hbody

end

/-- Settles O11: the frame's fields are taken silently one after the other, and its last byte completes it. -/
theorem assemblerReadsEncodedFrame : Obligations.AssemblerReadsEncodedFrame := by
  unfold Obligations.AssemblerReadsEncodedFrame
  intro c a k p hc hp hs hw
  obtain ⟨a', hframe, hidle⟩ := frameBytes_completes hc hp hs hw
  exact ⟨a', hframe.assemble_eq, hidle⟩

end Sys2Proof.Machine
end

section
/-! PROOFS. The statements about the encoding (30_encoding.md): the host word, the row that a well-formed instruction's payload
selects, and the round trip of the decoder over the encoder. -/

namespace Sys2Proof

/-! ### The host word (R145) -/

/-- Settles O2: `host_op` and `c` are read back from the word that they were put together to. -/
theorem hostWordReadsItsFields : Obligations.HostWordReadsItsFields := by
  unfold Obligations.HostWordReadsItsFields
  intro c a b d
  have hop (op : BitVec 3) : (op ++ c).extractLsb' 4 3 = op := BitVec.extractLsb'_append_eq_left
  have hcode (op : BitVec 3) : (op ++ c).extractLsb' 0 4 = c := BitVec.extractLsb'_append_eq_right
  simp only [decodeCall, hop, hcode]
  refine ⟨rfl, rfl, ?_, ?_, rfl, rfl, rfl, rfl, rfl⟩
  · rintro cmd rfl
    rw [Cmd.ofCode_code]
    rfl
  · intro hreserved
    rw [(Cmd.ofCode_eq_none c).mpr hreserved]
    rfl

/-! ### The row that a payload selects (R103, 41_classifier.md R202, R204, R207, R208) -/

section
variable {x : DecodeCtx} {p : List Byte}

theorem fits_iff : fits x p = true ↔ p.length ≤ x.lmax ∧ p.length < 65536 := decide_eq_true_iff

theorem docRow_iff {sub : Byte} :
    docRow x sub p = true ↔ fits x p = true ∧ x.profile = .doc ∧ ∃ rest, p = sub :: rest := by
  simp [docRow, List.head?_eq_some_iff, and_assoc]

theorem vendorRow_iff {sub : Byte} :
    vendorRow x sub p = true ↔ fits x p = true ∧ x.profile = .vendor ∧ ∃ rest, p = sub :: 0xAA :: rest := by
  rcases p with _ | ⟨b, _ | ⟨m, rest⟩⟩ <;> simp [vendorRow, and_assoc]

theorem ackRow_iff {c : Cmd} : ackRow x c p = true ↔
    fits x p = true ∧ 4 ≤ p.length ∧ x.pend = some c ∧ le16 p 0 = c.ackId x.profile := by
  simp [ackRow, and_assoc]

/-- R202: a payload without a known sub-type byte is in the reserved row. -/
theorem selectData_reserved (h : p.head?.any (knownSubtype x) = false) : selectData x p = .dataReservedSubtype p := by
  cases p with
  | nil => rfl
  | cons b rest =>
    have hb : b ≠ x.subBasic ∧ b ≠ x.subEnh := by simpa [knownSubtype] using h
    simp [selectData, hb]

theorem selectData_doc_basic {rest : List Byte} (hx : x.profile = .doc) :
    selectData x (x.subBasic :: rest) = .dataBasic (x.subBasic :: rest) := by simp [selectData, hx]

theorem selectData_doc_enhanced {rest : List Byte} (hx : x.profile = .doc) (hne : x.subBasic ≠ x.subEnh) :
    selectData x (x.subEnh :: rest) = .dataEnhanced (x.subEnh :: rest) := by simp [selectData, hx, hne.symm]

theorem selectData_vendor_basic {rest : List Byte} (hx : x.profile = .vendor) :
    selectData x (x.subBasic :: 0xAA :: rest) = .dataBasicVendor (x.subBasic :: 0xAA :: rest) := by simp [selectData, hx]

theorem selectData_vendor_enhanced {rest : List Byte} (hx : x.profile = .vendor) (hne : x.subBasic ≠ x.subEnh) :
    selectData x (x.subEnh :: 0xAA :: rest) = .dataEnhancedVendor (x.subEnh :: 0xAA :: rest) := by
  simp [selectData, hx, hne.symm]

/-- 42_data_decoder.md R233: under VENDOR a known sub-type without the head marker. -/
theorem selectData_vendor_badMarker (hx : x.profile = .vendor) (hsub : p.head?.any (knownSubtype x) = true)
    (hm : p[1]? ≠ some 0xAA) : selectData x p = .dataBadMarkerVendor p := by
  cases p with
  | nil => simp at hsub
  | cons b rest =>
    have hb : ¬ (b ≠ x.subBasic ∧ b ≠ x.subEnh) := by
      simpa [knownSubtype, or_iff_not_imp_left] using hsub
    have hm : rest.head? ≠ some 0xAA := by simpa [List.head?_eq_getElem?] using hm
    simp only [selectData, if_neg hb, hx, if_neg hm]

/-- R207: the pending command's own Ack. -/
theorem selectAck_of_pending {c : Cmd} (hl : 4 ≤ p.length) (hc : x.pend = some c) (hid : le16 p 0 = c.ackId x.profile) :
    selectAck x p = ackInstr c p := by
  simp [selectAck, hc, hid, Nat.not_lt.mpr hl]

/-- R205, R208: a short Ack and one that no pending request matches. -/
theorem selectAck_of_unmatched (h : unmatched x p = true) : selectAck x p = .ackUnsolicited p := by
  rcases Machine.selectAck_cases x p with hsel | ⟨c, hc, hl, hid, -⟩
  · exact hsel
  · simp [unmatched, hc, hid, Nat.not_lt.mpr hl] at h

end

/-! ### The round trip (R100, R145) -/

/-- A frame that fits is read whole and decodes to the row that its payload selects. -/
theorem decode_frame {x : DecodeCtx} {k : FrameKind} {p : List Byte} {i : Instr} (hp : fits x p = true)
    (hi : selectRow x k p = i) : decode x (.frame (frameBytes k p)) = .ok i := by
  obtain ⟨hlmax, hfield⟩ := fits_iff.mp hp
  have hparse := parseFrame_frameBytes x.lmax k p [] hlmax hfield
  rw [List.append_nil] at hparse
  rw [← hi, decode, hparse]

theorem decode_ackRow {x : DecodeCtx} {c : Cmd} {p : List Byte} (h : ackRow x c p = true) :
    decode x (.frame (frameBytes .ack p)) = .ok (ackInstr c p) := by
  obtain ⟨hp, hl, hc, hid⟩ := ackRow_iff.mp h
  exact decode_frame hp (selectAck_of_pending hl hc hid)

theorem decode_txCall (x : DecodeCtx) (cmd : Cmd) (a b d : Word32) :
    decode x (txCall cmd a b d) = .ok (txInstr cmd a b d) := by
  obtain ⟨-, -, htx, -⟩ := hostWordReadsItsFields cmd.code a b d
  exact congrArg Except.ok (htx cmd rfl)

/-- Settles O1: a frame selects its own row, a transmit word names its command, and the other host words their operation. -/
theorem decodeOfEncodeIsIdentity : Obligations.DecodeOfEncodeIsIdentity := by
  unfold Obligations.DecodeOfEncodeIsIdentity
  intro x i h
  cases i with
  | dataBasic p =>
    obtain ⟨hp, hx, rest, rfl⟩ := docRow_iff.mp h
    exact decode_frame hp (selectData_doc_basic hx)
  | dataEnhanced p =>
    obtain ⟨hrow, hne⟩ := Bool.and_eq_true_iff.mp h
    obtain ⟨hp, hx, rest, rfl⟩ := docRow_iff.mp hrow
    exact decode_frame hp (selectData_doc_enhanced hx (bne_iff_ne.mp hne))
  | dataBasicVendor p =>
    obtain ⟨hp, hx, rest, rfl⟩ := vendorRow_iff.mp h
    exact decode_frame hp (selectData_vendor_basic hx)
  | dataEnhancedVendor p =>
    obtain ⟨hrow, hne⟩ := Bool.and_eq_true_iff.mp h
    obtain ⟨hp, hx, rest, rfl⟩ := vendorRow_iff.mp hrow
    exact decode_frame hp (selectData_vendor_enhanced hx (bne_iff_ne.mp hne))
  | dataBadMarkerVendor p =>
    obtain ⟨⟨⟨hp, hx⟩, hsub⟩, hm⟩ :
        ((fits x p = true ∧ x.profile = .vendor) ∧ p.head?.any (knownSubtype x) = true) ∧ p[1]? ≠ some 0xAA := by
      simpa [Instr.wf] using h
    exact decode_frame hp (selectData_vendor_badMarker hx hsub hm)
  | dataReservedSubtype p =>
    obtain ⟨hp, hsub⟩ : fits x p = true ∧ p.head?.any (knownSubtype x) = false := by
      simpa only [Instr.wf, Bool.and_eq_true, Bool.not_eq_true'] using h
    exact decode_frame hp (selectData_reserved hsub)
  | ackUnsolicited p =>
    obtain ⟨hp, hun⟩ := Bool.and_eq_true_iff.mp h
    exact decode_frame hp (selectAck_of_unmatched hun)
  | ackEnterCfg | ackExitCfg | ackEnhOn | ackEnhOff | ackReadMac | ackReadFw | ackReadRes | ackSetRes | ackReadParams
  | ackSetGateThr | ackSetMaxgateNoone | ackFactoryReset | ackReboot | ackBtOn | ackBtOff => exact (decode_ackRow h :)
  | txSetRes r =>
    have hr : (r.setWidth 32).extractLsb' 0 16 = r := by
      rw [BitVec.extractLsb'_setWidth_of_le (by decide), BitVec.extractLsb'_eq_self]
    have htx := decode_txCall x .setRes (r.setWidth 32) 0 0
    rwa [txInstr, hr] at htx
  | txEnterCfg | txExitCfg | txEnhOn | txEnhOff | txReadMac | txReadFw | txReadRes | txReadParams | txSetGateThr
  | txSetMaxgateNoone | txFactoryReset | txReboot | txBtOn | txBtOff => exact decode_txCall x _ _ _ _
  | rd a b =>
    obtain ⟨-, -, -, -, -, hrd, -⟩ := hostWordReadsItsFields 0 a b 0
    exact congrArg Except.ok hrd
  | txReserved15 | reset | check | timeout | reservedOp5 | reservedOp6 | reservedOp7 => rfl
  | feed => rfl

/-- Settles O3: each word is evaluated; the frames are read whole by their length field and select their row by the payload. -/
theorem specWordsDecode : Obligations.SpecWordsDecode := by
  unfold Obligations.SpecWordsDecode
  exact ⟨rfl, rfl, rfl, rfl, rfl, rfl, rfl⟩

end Sys2Proof
end

section
/-! PROOFS. The assembler past garbage (40_assembler.md R161 to R163, R176): in SEEK_HEADER the window is the end of what was read,
so the first header magic in the stream is the first that it shows. -/

namespace Sys2Proof.Machine

open Sys2Proof

/-! ### The window in SEEK_HEADER -/

/-- The byte enters the window, which is not tested yet (R161). -/
def Asm.enterWindow (a : Asm) (b : Byte) : Asm :=
  if a.wn < 4 then { a with win := windowSet a.win a.wn b, wn := a.wn + 1 } else { a with win := windowShift a.win b }

/-- R161, R162: SEEK enters the byte and tests the window. -/
theorem byteStep_seek (c : Instance) {a : Asm} (b : Byte) (hs : a.state = .seekHeader) :
    byteStep c b a = .none (a.enterWindow b).headerTest := by
  simp only [byteStep, hs, seekStep, Asm.enterWindow]

theorem Asm.enterWindow_state (a : Asm) (b : Byte) : (a.enterWindow b).state = a.state := by
  unfold Asm.enterWindow; split <;> rfl

/-- The window holds the last bytes of `u`, four of them if there are so many. -/
structure Asm.Shows (u : List Byte) (a : Asm) : Prop where
  wn : a.wn = min 4 u.length
  win : a.win.toList.take a.wn <:+ u

theorem Asm.shows_nil {a : Asm} (hw : a.wn = 0) : a.Shows [] := ⟨hw, by simp [hw]⟩

/-- R161: the byte becomes the window's last one, and the oldest of a full window is dropped. -/
theorem Asm.Shows.enterWindow {u : List Byte} {a : Asm} (h : a.Shows u) (b : Byte) : (a.enterWindow b).Shows (u ++ [b]) := by
  obtain ⟨hwn, pre, hpre⟩ := h
  by_cases hlt : a.wn < 4
  · have hlen : (a.win.toList.take a.wn).length = a.wn := by simp [Quad.toList]; omega
    have htake := take_windowSet (q := a.win) (u := a.win.toList.take a.wn) b (by omega) (by rw [hlen])
    rw [Asm.enterWindow, if_pos hlt]
    constructor
    · simp only [List.length_append, List.length_singleton]; omega
    · rw [hlen, List.length_append, hlen] at htake
      exact ⟨pre, by rw [← hpre, List.append_assoc]; exact congrArg (pre ++ ·) htake⟩
  · have hfull : a.wn = 4 := by omega
    rw [Asm.enterWindow, if_neg hlt]
    constructor
    · simp only [List.length_append, List.length_singleton]; omega
    · rw [hfull] at hpre ⊢
      exact ⟨pre ++ [a.win.b0], by rw [← hpre]; simp [Quad.toList, windowShift]⟩

/-- A full window is the last four bytes. -/
theorem Asm.Shows.full {u : List Byte} {a : Asm} (h : a.Shows u) (hw : a.wn = 4) : a.win.toList <:+ u := by
  have hwin := h.win
  rwa [hw] at hwin

/-- The last four bytes of what was read stand in the window. -/
theorem Asm.Shows.win_eq {u : List Byte} {a : Asm} {q : Quad} (h : a.Shows (u ++ q.toList)) : a.wn = 4 ∧ a.win = q := by
  have hwn : a.wn = 4 := by rw [h.wn]; simp [Quad.toList]
  refine ⟨hwn, ?_⟩
  have heq : a.win.toList = q.toList :=
    (List.suffix_of_suffix_length_le (h.full hwn) (List.suffix_append u q.toList) le_rfl).eq_of_length rfl
  obtain ⟨h0, h1, h2, h3⟩ : a.win.b0 = q.b0 ∧ a.win.b1 = q.b1 ∧ a.win.b2 = q.b2 ∧ a.win.b3 = q.b3 := by
    simpa [Quad.toList] using heq
  exact congr (congr (congr (congrArg Quad.mk h0) h1) h2) h3

theorem NoHeaderIn.of_append {u v : List Byte} (h : NoHeaderIn (u ++ v)) : NoHeaderIn u :=
  fun pre post q hu => h pre (post ++ v) q (by rw [hu]; simp)

theorem NoHeaderIn.of_suffix {u : List Byte} {q : Quad} (h : NoHeaderIn u) (hq : q.toList <:+ u) : headerOf q = none := by
  obtain ⟨pre, hpre⟩ := hq
  exact h pre [] q (by rw [List.append_nil, hpre])

/-- R163: a byte that ends no header magic leaves SEEK_HEADER as it is. -/
theorem byteStep_seek_noHeader (c : Instance) {a : Asm} {u : List Byte} {b : Byte} (hs : a.state = .seekHeader)
    (ha : a.Shows u) (hno : NoHeaderIn (u ++ [b])) : byteStep c b a = .none (a.enterWindow b) := by
  rw [byteStep_seek c b hs]
  by_cases hw : (a.enterWindow b).wn = 4
  · rw [Asm.headerTest_none _ (hno.of_suffix ((ha.enterWindow b).full hw))]
  · rw [Asm.headerTest_short _ hw]

/-- R163: bytes without a header magic are taken silently, also behind bytes that were read before. -/
theorem noHeader_takesSilently (c : Instance) (v u : List Byte) {a : Asm} (hs : a.state = .seekHeader) (ha : a.Shows u)
    (hno : NoHeaderIn (u ++ v)) : ∃ a', TakesSilently c v a a' ∧ a'.state = .seekHeader ∧ a'.Shows (u ++ v) := by
  induction v generalizing u a with
  | nil => exact ⟨a, .nil a, hs, by rwa [List.append_nil]⟩
  | cons b v ih =>
    have hsplit : u ++ b :: v = u ++ [b] ++ v := by simp
    rw [hsplit] at hno ⊢
    have hb := byteStep_seek_noHeader c hs ha hno.of_append
    obtain ⟨a', hv, ha'⟩ := ih (u ++ [b]) ((a.enterWindow_state b).trans hs) (ha.enterWindow b) hno
    exact ⟨a', .cons hb hv, ha'⟩

/-- R162: the byte that ends a header magic of the stream opens a frame of its family. -/
theorem byteStep_seek_magic (c : Instance) {a : Asm} {u v : List Byte} {b : Byte} {k : FrameKind} (hs : a.state = .seekHeader)
    (ha : a.Shows u) (hu : u ++ [b] = v ++ (headerMagic k).toList) : ∃ a', byteStep c b a = .none a' ∧ a'.AwaitsLength k := by
  have hshows := ha.enterWindow b
  rw [hu] at hshows
  obtain ⟨hwn, hwin⟩ := hshows.win_eq
  have htest := Asm.headerTest_some (a.enterWindow b) k hwn (by rw [hwin, headerOf_headerMagic])
  exact ⟨_, (byteStep_seek c b hs).trans (congrArg ByteOut.none htest), rfl, rfl, rfl⟩

/-! ### The frame behind garbage -/

/-- R176: a Data frame behind garbage that hides no header completes at its last byte. -/
theorem frameAfterGarbage_completes {c : Instance} {a : Asm} {g p : List Byte} (hc : c.wf = true) (hp : p.length ≤ c.lmax)
    (hs : a.state = .seekHeader) (hw : a.wn = 0) (hno : NoHeaderIn (g ++ [0xF4, 0xF3, 0xF2])) :
    ∃ a', CompletesFrame c .data p (g ++ frameBytes .data p) a a' ∧ a'.state = .seekHeader ∧ a'.wn = 0 := by
  obtain ⟨a₁, hgarbage, hs₁, ha₁⟩ := noHeader_takesSilently c (g ++ [0xF4, 0xF3, 0xF2]) [] hs (Asm.shows_nil hw) hno
  have hmagic : g ++ [0xF4, 0xF3, 0xF2] ++ [0xF1] = g ++ (headerMagic .data).toList := by simp [headerMagic, Quad.toList]
  obtain ⟨a₂, hlast, ha₂⟩ := byteStep_seek_magic c hs₁ ha₁ hmagic
  obtain ⟨a', hbody, hidle⟩ := frameBody_completes hc hp ha₂
  refine ⟨a', ?_, hidle⟩
  have hframe := (hgarbage.append (.single hlast)).completes hbody
  rw [hmagic] at hframe
  simpa only [frameBytes, List.append_assoc] using hframe

/-- R174: the assembler over a completed frame and what follows. -/
theorem CompletesFrame.assemble_append {c : Instance} {k : FrameKind} {p bs : List Byte} {a a' : Asm}
    (h : CompletesFrame c k p bs a a') (v : List Byte) : assemble c (bs ++ v) a =
      match assemble c v a' with
      | .done fs b => .done ((k, p) :: fs) b
      | .fault f => .fault f := by
  rw [Machine.assemble_append, h.assemble_eq]
  rfl

/-- Settles O12: the window shows no header magic before the frame's own, and from there the frame's fields are read as they
are from an empty window. -/
theorem resyncPastGarbage : Obligations.ResyncPastGarbage := by
  unfold Obligations.ResyncPastGarbage
  intro c a g1 g2 p hc hp hs hw hno
  obtain ⟨a', hframe, hs', hw'⟩ := frameAfterGarbage_completes hc hp hs hw hno
  exact ⟨a', hs', hw', hframe.assemble_append g2⟩

end Sys2Proof.Machine
end

section
/-! PROOFS. The rounds of a running CHECK (44_host_ops.md R302): a round that takes a byte is that byte's step in the assembler, and
the assembler's rules (40_assembler.md R161 to R172) say what it answers. -/

namespace Sys2Proof.Machine

open Sys2Proof

/-! ### The round -/

/-- What a round that takes a byte answers, from what the byte step answers: an error resolves (60_exceptions.md R365), and a
completed frame's meaning runs (R172). -/
def roundOutcome (s : State) (rest : List Byte) (ts : List Turn) : ByteOut → Host.Outcome State Fault Refusal
  | .none a => .next (afterRound s rest ts a [])
  | .error e a => .next ((afterRound s rest ts a []).takeError e)
  | .complete k p a => exec (selectRow s.ctx k p) (afterRound s rest ts a [])
  | .fault f => .fault f

theorem step_of_engineNext {s : State} {ts : List Turn} (h : EngineNext s ts) : step s = (engineTurn (s.turned ts)).run := by
  obtain ⟨hw, hc, ht | ⟨ht | ⟨us, ht⟩, rfl⟩⟩ := h <;> simp [step_eq_run, fetch, hw, hc, ht, State.turned]

/-- R302: a round is the byte step of the byte that it takes. -/
theorem step_of_roundTakes {s : State} {b : Byte} {rest : List Byte} {ts : List Turn} (h : RoundTakes s b rest ts) :
    step s = roundOutcome s rest ts (byteStep s.inst b s.asm) := by
  obtain ⟨hnext, hrx⟩ := h
  rw [step_of_engineNext hnext]
  simp only [engineTurn, State.turned, hrx]
  cases byteStep s.inst b s.asm <;> rfl

/-! ### The header test -/

/-- R162, R163, with the magics of R101 written out. -/
theorem Asm.headerTest_eq (a : Asm) : a.headerTest =
    if a.wn = 4 ∧ a.win = ⟨0xF4, 0xF3, 0xF2, 0xF1⟩ then { a with kind := .data, state := .readLength, wn := 0, ln := 0 }
    else if a.wn = 4 ∧ a.win = ⟨0xFD, 0xFC, 0xFB, 0xFA⟩ then { a with kind := .ack, state := .readLength, wn := 0, ln := 0 }
    else a := by
  by_cases hw : a.wn = 4
  · simp only [hw, true_and]
    split
    · next hdata => exact Asm.headerTest_some a .data hw (by rw [hdata]; rfl)
    · next hdata =>
      split
      · next hack => exact Asm.headerTest_some a .ack hw (by rw [hack]; rfl)
      · next hack => exact Asm.headerTest_none a ((if_neg hdata).trans (if_neg hack))
  · simp only [hw, false_and, if_false, Asm.headerTest_short a hw]

/-- R161, with the window and its count as choices of their own. -/
theorem Asm.enterWindow_eq (a : Asm) (b : Byte) : a.enterWindow b = { a with
    win := if a.wn < 4 then windowSet a.win a.wn b else windowShift a.win b
    wn := if a.wn < 4 then a.wn + 1 else a.wn } := by
  unfold Asm.enterWindow; split <;> rfl

/-- R171: the four bytes of a quad, taken from SEEK_HEADER with an empty window, fill the window, which is tested. -/
theorem quad_takesSilently (c : Instance) (q : Quad) {a : Asm} (hs : a.state = .seekHeader) (hw : a.wn = 0) :
    TakesSilently c q.toList a { a with win := q, wn := 4 }.headerTest := by
  have h₀ := byteStep_seek_short c q.b0 hs (by omega)
  have h₁ := byteStep_seek_short c (a := { a with win := windowSet a.win a.wn q.b0, wn := a.wn + 1 }) q.b1 hs (by simp [hw])
  rw [hw] at h₀ h₁
  refine .cons h₀ (.cons h₁ (.cons (byteStep_seek_short c q.b2 hs (by simp)) (.single ?_)))
  exact byteStep_seek c q.b3 hs

/-- The assembler over bytes that are taken silently completes no frame. -/
theorem TakesSilently.assemble_eq {c : Instance} {bs : List Byte} {a a' : Asm} (h : TakesSilently c bs a a') :
    assemble c bs a = .done [] a' := by
  induction h with
  | nil => rfl
  | cons hb _ ih => simp only [assemble, hb, ih]

/-! ### The length and the tail -/

/-- R165, R166: the high length byte of a length above `LMAX`. -/
theorem byteStep_length_overflow (c : Instance) {a : Asm} (b : Byte) (hs : a.state = .readLength) (hl : a.ln = 1)
    (hlen : c.lmax < (le16 [a.lb, b] 0).toNat) :
    byteStep c b a = .error .lengthOverflow { a with len := le16 [a.lb, b] 0, ln := 0 } := by
  simp [byteStep, hs, lengthStep, hl, hlen]

/-- R169, R171: the fourth byte of a tail that is not the family's own. -/
theorem byteStep_tail_mismatch (c : Instance) {a : Asm} (b : Byte) (hs : a.state = .readTail) (ht : a.tn = 3)
    (htail : { a.twin with b3 := b } ≠ tailMagic a.kind) :
    byteStep c b a = .error .tailMismatch { a with twin := { a.twin with b3 := b }, tn := 0 } := by
  simp only [byteStep, hs, tailStep, ht, windowSet, if_neg (Nat.lt_irrefl 4), if_neg htail]

/-! ### The frame that a byte completes -/

/-- A frame above `LMAX` is no instruction (R166). -/
theorem parseFrame_frameBytes_overflow {lmax : Nat} {k : FrameKind} {p : List Byte} (h : lmax < p.length)
    (h' : p.length < 65536) : parseFrame lmax (frameBytes k p) = .error .lengthOverflow := by
  have hlen : (le16 (bytes16 (BitVec.ofNat 16 p.length)) 0).toNat = p.length := by
    simpa using le16_length p.length h' []
  have hm : headerOf ⟨(headerMagic k).b0, (headerMagic k).b1, (headerMagic k).b2, (headerMagic k).b3⟩ = some k :=
    headerOf_headerMagic k
  rw [bytes16] at hlen
  simp only [frameBytes, Quad.toList, bytes16, List.cons_append, List.nil_append, parseFrame, hm, hlen, if_pos h]

/-- A whole frame that decodes is the instruction of the row that its payload selects. -/
theorem selectRow_of_decode {x : DecodeCtx} {k : FrameKind} {p : List Byte} {i : Instr} (hp : p.length < 65536)
    (h : decode x (.frame (frameBytes k p)) = .ok i) : selectRow x k p = i := by
  rcases Nat.lt_or_ge x.lmax p.length with hlt | hle
  · rw [decode, parseFrame_frameBytes_overflow hlt hp] at h; cases h
  · exact Except.ok.inj ((decode_frame (fits_iff.mpr ⟨hle, hp⟩) rfl).symm.trans h)

/-! ### The obligations -/

/-- Settles O5: the byte step in SEEK_HEADER enters the byte and tests the window. -/
theorem seekShiftsAndTestsTheWindow : Obligations.SeekShiftsAndTestsTheWindow := by
  unfold Obligations.SeekShiftsAndTestsTheWindow
  intro s b rest ts h hs
  rw [step_of_roundTakes h, byteStep_seek s.inst b hs, Asm.enterWindow_eq, Asm.headerTest_eq]
  rfl

/-- Settles O6, by the three byte steps of READ_LENGTH. -/
theorem lengthBytesAndOverflowGuard : Obligations.LengthBytesAndOverflowGuard := by
  unfold Obligations.LengthBytesAndOverflowGuard
  intro s b rest ts h hs
  rw [step_of_roundTakes h]
  refine ⟨fun hl => ?_, fun hl => ⟨fun hlt => ?_, fun hle => ?_⟩⟩
  · rw [byteStep_length_low s.inst b hs hl]; rfl
  · rw [byteStep_length_overflow s.inst b hs hl hlt]; rfl
  · rw [byteStep_length_high s.inst b hs hl hle]; rfl

/-- Settles O7: the memory is `PBUF` with the byte written at `PLEN`. -/
theorem payloadByteIsAppended : Obligations.PayloadByteIsAppended := by
  unfold Obligations.PayloadByteIsAppended
  intro s b rest ts h hs hlt hcap
  refine ⟨s.asm.pbuf.write s.asm.plen.toNat b, ?_, Memory.read_write_same _ _ b,
    fun i hi => Memory.read_write_other _ _ i b hi⟩
  rw [step_of_roundTakes h, byteStep_payload s.inst b hs (hlt.trans_le hcap)]
  rfl

/-- Settles O8: the resynchronisation makes the tail the window and tests it. -/
theorem tailBytesCollectedAndMismatchResyncs : Obligations.TailBytesCollectedAndMismatchResyncs := by
  unfold Obligations.TailBytesCollectedAndMismatchResyncs
  intro s b rest ts h hs
  rw [step_of_roundTakes h]
  constructor
  · intro ht
    rw [byteStep_tail_short s.inst b hs ht]
    rfl
  · intro ht q hq
    have htest := Asm.headerTest_eq { s.asm with twin := q, tn := 0, win := q, state := .seekHeader, wn := 4 }
    simp only [true_and] at htest
    refine ⟨0, ?_⟩
    rw [byteStep_tail_mismatch s.inst b hs ht hq, ← htest]
    rfl

/-- Settles O9: the four tail bytes fill the empty window, and both then test it. -/
theorem resyncEqualsRefeedingTheTail : Obligations.ResyncEqualsRefeedingTheTail :=
  fun c a => (quad_takesSilently c a.twin (a := { a with state := .seekHeader, wn := 0 }) rfl rfl).assemble_eq

/-- Settles O14: the round runs the row that the payload selects, and a frame decodes to no other. -/
theorem stepRunsTheCompletedFrame : Obligations.StepRunsTheCompletedFrame := by
  unfold Obligations.StepRunsTheCompletedFrame
  intro s b rest ts p i h hs ht htail hp hdecode
  have hlen : p.length < 65536 := by
    rw [Memory.readFirst_length _ _ p hp]
    exact s.asm.plen.isLt
  refine ⟨0, ?_⟩
  rw [step_of_roundTakes h, byteStep_tail_complete s.inst b hs ht htail hp, ← selectRow_of_decode hlen hdecode, ← htail]
  rfl

end Sys2Proof.Machine
end

section
/-! PROOFS. R174 of the machine (40_assembler.md): the bytes and the turns that are still to come do not touch a round that takes a
byte, so a CHECK over `u` runs as the beginning of one over `u ++ v`. -/

namespace Sys2Proof.Machine

open Sys2Proof

/-! ### More bytes and other turns to come -/

/-- The outcome with its next state changed by `f`. -/
def mapNext (f : State → State) : Host.Outcome State Fault Refusal → Host.Outcome State Fault Refusal
  | .next t => .next (f t)
  | .fault g => .fault g
  | .refused r => .refused r

/-- The state with the bytes `v` behind those in the receive FIFO, and with `ts` as the turns to come. -/
def State.withMore (s : State) (v : List Byte) (ts : List Turn) : State := { s with rx := s.rx ++ v, turns := ts }

theorem State.withMore_withMore (s : State) (v w : List Byte) (ts us : List Turn) :
    (s.withMore v ts).withMore w us = s.withMore (v ++ w) us := by
  simp only [State.withMore, List.append_assoc]

/-- A branch on a condition that `f` does not touch. -/
theorem ite_eq_mapNext {f : State → State} {c : Prop} [Decidable c] {o o' u u' : Host.Outcome State Fault Refusal}
    (h : o = mapNext f o') (h' : u = mapNext f u') : (if c then o else u) = mapNext f (if c then o' else u') := by
  split
  · exact h
  · exact h'

section
variable (s : State) (v : List Byte) (ts : List Turn) (p : List Byte) (k : State → Host.Outcome State Fault Refusal)

/-- From `s` the meaning `k` does the same with more bytes in the receive FIFO and with other turns to come. -/
def IgnoresMore : Prop := k (s.withMore v ts) = mapNext (·.withMore v ts) (k s)

theorem discard_ignoresMore (e : Event) : IgnoresMore s v ts (fun s => .next (s.discard e)) := by
  cases e <;> rfl

theorem unlessBlocked_ignoresMore (h : IgnoresMore s v ts k) : IgnoresMore s v ts (unlessBlocked · k) :=
  ite_eq_mapNext (discard_ignoresMore s v ts _) h

theorem needBytes_ignoresMore (n : Nat) (h : IgnoresMore s v ts k) : IgnoresMore s v ts (needBytes n p · k) :=
  ite_eq_mapNext (discard_ignoresMore s v ts _) h

theorem needMarker_ignoresMore (h : IgnoresMore s v ts k) : IgnoresMore s v ts (needMarker p · k) :=
  needBytes_ignoresMore s v ts p _ 2 (ite_eq_mapNext (discard_ignoresMore s v ts _) h)

/-- A Data row works on the payload and the registers alone. -/
theorem exec_selectData_ignoresMore (x : DecodeCtx) : IgnoresMore s v ts (exec (selectData x p)) := by
  rcases selectData_cases x p with hsel | hsel | hsel | hsel | hsel | hsel <;> rw [hsel]
  · exact needBytes_ignoresMore s v ts p _ 1 (discard_ignoresMore s v ts _)
  · exact unlessBlocked_ignoresMore s v ts _ (needBytes_ignoresMore s v ts p _ 2 (discard_ignoresMore s v ts _))
  · exact unlessBlocked_ignoresMore s v ts _ (needBytes_ignoresMore s v ts p _ 10 rfl)
  · exact unlessBlocked_ignoresMore s v ts _ (needBytes_ignoresMore s v ts p _ (10 + 2 * gateCount s.cfg) rfl)
  · exact unlessBlocked_ignoresMore s v ts _ (needMarker_ignoresMore s v ts p _ (needBytes_ignoresMore s v ts p _ 11 rfl))
  · exact unlessBlocked_ignoresMore s v ts _ (needMarker_ignoresMore s v ts p _ (needBytes_ignoresMore s v ts p _ 13
      (needBytes_ignoresMore s v ts p _ (15 + vendorMm p + vendorMs p) rfl)))

theorem ackEffect_withMore (c : Cmd) : ackEffect p c (s.withMore v ts) = (ackEffect p c s).withMore v ts := by
  cases c <;> rfl

/-- An Ack row works on the payload and the registers alone. -/
theorem exec_selectAck_ignoresMore (x : DecodeCtx) : IgnoresMore s v ts (exec (selectAck x p)) := by
  rcases selectAck_cases x p with hsel | ⟨c, -, -, -, hsel⟩ <;> rw [hsel]
  · exact ite_eq_mapNext (discard_ignoresMore s v ts _) rfl
  · rw [IgnoresMore, exec_ackInstr, exec_ackInstr, acceptAck, acceptAck, ackEffect_withMore]
    exact ite_eq_mapNext rfl (ite_eq_mapNext (discard_ignoresMore s v ts _) rfl)

/-- A round works on the byte that it takes and not on the bytes and turns behind it. -/
theorem roundOutcome_withMore (rest : List Byte) (us : List Turn) (o : ByteOut) :
    roundOutcome (s.withMore v ts) (rest ++ v) ts o = mapNext (·.withMore v ts) (roundOutcome s rest us o) := by
  cases o with
  | none a => rfl
  | error e a => cases e <;> rfl
  | fault f => rfl
  | complete k p a =>
    cases k with
    | data => exact exec_selectData_ignoresMore (afterRound s rest us a []) v ts p s.ctx
    | ack => exact exec_selectAck_ignoresMore (afterRound s rest us a []) v ts p s.ctx

end

/-! ### The other turns of the runs compared -/

section
variable {s : State} {ts : List Turn}

/-- R302: a round that finds the FIFO empty ends the CHECK. -/
theorem step_of_fifoEmpty (h : EngineNext s ts) (hrx : s.rx = []) : step s = .next ((s.turned ts).endCheck .fail) := by
  rw [step_of_engineNext h]
  simp only [engineTurn, State.turned, hrx]
  rfl

/-- An await turn in an idle block is passed over. -/
theorem step_await_of_idle (hw : s.inst.wf = true) (hc : s.checking = false) (ht : s.turns = .await :: ts) :
    step s = .next (s.turned ts) := by
  simp [step_eq_run, fetch, hw, hc, ht, State.turned, Fetched.run]

/-- An idle block without a turn stays as it is. -/
theorem step_nil_of_idle (hw : s.inst.wf = true) (hc : s.checking = false) (ht : s.turns = []) :
    step s = .next (s.turned []) := by
  simp [step_eq_run, fetch, hw, hc, ht, State.turned, Fetched.run]

/-- R330: a transport turn feeds its bytes. -/
theorem step_transport {bs : List Byte} (hw : s.inst.wf = true) (ht : s.turns = .transport bs :: ts) :
    step s = .next ((s.turned ts).rxPush bs) := by
  simp only [step_eq_run, fetch, hw, ht]
  rfl

/-- CHECK's loop is entered and has no result yet (R302). -/
def State.beginCheck (s : State) : State := { s with checking := true, result := none }

/-- R302: the call of CHECK begins its loop. -/
theorem step_checkCall (hw : s.inst.wf = true) (hc : s.checking = false) (ht : s.turns = .host checkCall :: ts) :
    step s = .next (s.turned ts).beginCheck :=
  step_host_of_idle hw hc ht

/-- 60_exceptions.md R352: no step reads the event port. -/
theorem step_withEvents (s : State) (es : List Event) : step { s with events := es } = step s := rfl

/-- The block is idle, and at most an await turn is left. -/
structure State.Rests (s : State) : Prop where
  wf : s.inst.wf = true
  idle : s.checking = false
  turns : s.turns = [] ∨ s.turns = [.await]

theorem State.Rests.step (h : s.Rests) : ∃ t, Machine.step s = .next t ∧ t.Rests := by
  obtain ⟨hw, hc, ht | ht⟩ := h
  · exact ⟨_, step_nil_of_idle hw hc ht, hw, hc, .inl rfl⟩
  · exact ⟨_, step_await_of_idle hw hc ht, hw, hc, .inl rfl⟩

/-- A block at rest begins no CHECK. -/
theorem State.Rests.steps (n : Nat) {t : State} (h : s.Rests) (hrun : Machine.steps n s = .next t) : t.checking = false := by
  induction n generalizing s with
  | zero => cases hrun; exact h.idle
  | succ n ih =>
    obtain ⟨u, hstep, hu⟩ := h.step
    rw [steps_of_next n s u hstep] at hrun
    exact ih hu hrun

end

/-! ### A CHECK that the host awaits -/

/-- A CHECK runs without a result yet, and the host awaits its end before `ts`. -/
structure State.Awaited (ts : List Turn) (s : State) : Prop where
  wf : s.inst.wf = true
  checking : s.checking = true
  turns : s.turns = .await :: ts
  result : s.result = none

/-- The meaning of a frame ends the CHECK and leaves the parameters and the turns (40_assembler.md R172). -/
theorem FrameOutcome.ends {s t : State} {k : FrameKind} {p : List Byte} (h : FrameOutcome s k p t) :
    t.inst = s.inst ∧ t.checking = false ∧ t.turns = s.turns := by
  cases h with
  | accepted => rw [ackEffect_frame p s.pendCmd s]; exact ⟨rfl, rfl, rfl⟩
  | _ => exact ⟨rfl, rfl, rfl⟩

section
variable {s t : State} {ts : List Turn} {b : Byte} {rest : List Byte}

theorem State.Awaited.engineNext (h : s.Awaited ts) : EngineNext s (.await :: ts) :=
  ⟨h.wf, h.checking, .inr ⟨.inr ⟨ts, h.turns⟩, h.turns.symm⟩⟩

theorem State.Awaited.withMore (h : s.Awaited ts) (v : List Byte) (us : List Turn) :
    (s.withMore v (.await :: us)).Awaited us := ⟨h.wf, h.checking, rfl, h.result⟩

/-- A round that takes a byte does so as well with more bytes and other turns behind it. -/
theorem State.Awaited.step_withMore (h : s.Awaited ts) (hrx : s.rx = b :: rest) (v : List Byte) (us : List Turn) :
    step (s.withMore v (.await :: us)) = mapNext (·.withMore v (.await :: us)) (step s) := by
  have hrx' : (s.withMore v (.await :: us)).rx = b :: (rest ++ v) := by rw [State.withMore, hrx]; rfl
  rw [step_of_roundTakes ⟨h.engineNext, hrx⟩, step_of_roundTakes ⟨(h.withMore v us).engineNext, hrx'⟩]
  exact roundOutcome_withMore s v _ rest _ _

/-- After a round that took a byte the CHECK is awaited still, or a completed frame has ended it. -/
theorem State.Awaited.next (h : s.Awaited ts) (hrx : s.rx = b :: rest) (hstep : step s = .next t) :
    t.Awaited ts ∧ t.rx = rest ∨ t.inst.wf = true ∧ t.checking = false ∧ t.turns = .await :: ts := by
  rw [step_of_roundTakes ⟨h.engineNext, hrx⟩] at hstep
  cases hb : byteStep s.inst b s.asm <;> rw [hb] at hstep
  case none a => cases hstep; exact .inl ⟨⟨h.wf, h.checking, rfl, h.result⟩, rfl⟩
  case error e a =>
    cases hstep
    refine .inl ⟨⟨?_, ?_, State.takeError_turns _ e, ?_⟩, State.takeError_rx _ e⟩
    · exact (congrArg Instance.wf (State.takeError_inst _ e)).trans h.wf
    · exact (State.takeError_checking _ e).trans h.checking
    · exact (State.takeError_result _ e).trans h.result
  case complete k p a =>
    have hframe := frameOutcome_of_exec (s := afterRound s rest (.await :: ts) a []) hstep
    obtain ⟨hinst, hidle, hturns⟩ := hframe.ends
    exact .inr ⟨(congrArg Instance.wf hinst).trans h.wf, hidle, hturns⟩
  case fault f => cases hstep

/-- R174: as long as an awaited CHECK runs on the bytes that it has, it takes them one by one, and the same steps are taken with
more bytes and other turns behind them. -/
theorem State.Awaited.steps_withMore (n : Nat) (h : s.Awaited []) (hn : n ≤ s.rx.length) (hrun : steps n s = .next t)
    (hcheck : t.checking = true) : t.Awaited [] ∧ t.rx = s.rx.drop n ∧
      ∀ v us, steps n (s.withMore v (.await :: us)) = .next (t.withMore v (.await :: us)) := by
  induction n generalizing s with
  | zero => cases hrun; exact ⟨h, rfl, fun _ _ => rfl⟩
  | succ n ih =>
    cases hrx : s.rx with
    | nil => simp [hrx] at hn
    | cons b rest =>
      rw [steps_succ] at hrun
      cases hstep : step s with
      | fault f => rw [hstep] at hrun; cases hrun
      | refused r => rw [hstep] at hrun; cases hrun
      | next s₁ =>
        rw [hstep] at hrun
        rcases h.next hrx hstep with ⟨h₁, hrx₁⟩ | ⟨hw₁, hidle₁, hturns₁⟩
        · obtain ⟨ht, htrx, hmore⟩ := ih h₁ (by simpa [hrx₁, hrx] using hn) hrun
          refine ⟨ht, by rw [htrx, hrx₁]; rfl, fun v us => ?_⟩
          have hstep' := h.step_withMore hrx v us
          rw [hstep] at hstep'
          rw [steps_of_next n _ _ hstep', hmore v us]
        · have hrests : s₁.Rests := ⟨hw₁, hidle₁, .inr hturns₁⟩
          rw [hrests.steps n hrun] at hcheck
          cases hcheck

end

/-! ### The runs of R174 -/

section
variable {s l m : State} {u : List Byte}

theorem step_checkOver (hw : s.inst.wf = true) (hc : s.checking = false) (bs : List Byte) (ts : List Turn) :
    step (checkOver s bs ts) = .next ((checkOver s bs ts).turned (.await :: ts)).beginCheck :=
  step_checkCall (s := checkOver s bs ts) hw hc rfl

/-- A CHECK over `u` that still runs is the beginning of one over `u ++ v`. -/
theorem steps_checkOver (hw : s.inst.wf = true) (hc : s.checking = false) {n : Nat} (hn : n ≤ 1 + u.length)
    (hrun : steps n (checkOver s u []) = .next m) (hcheck : m.checking = true) :
    0 < n ∧ m.Awaited [] ∧ m.rx = u.drop (n - 1) ∧
      ∀ v ts, steps n (checkOver s (u ++ v) ts) = .next (m.withMore v (.await :: ts)) := by
  cases n with
  | zero => cases hrun; exact absurd (hc.symm.trans hcheck) Bool.false_ne_true
  | succ n =>
    rw [steps_of_next n _ _ (step_checkOver hw hc u [])] at hrun
    have hbegun : (((checkOver s u []).turned [.await]).beginCheck).Awaited [] := ⟨hw, rfl, rfl, rfl⟩
    have hle : n ≤ u.length := by omega
    obtain ⟨hm, hrx, hmore⟩ := hbegun.steps_withMore n hle hrun hcheck
    refine ⟨Nat.succ_pos n, hm, hrx, fun v ts => ?_⟩
    rw [steps_of_next n _ _ (step_checkOver hw hc (u ++ v) ts)]
    exact hmore v ts

/-- A frame that ends the CHECK over `u` ends the one over `u ++ v` in the same step. -/
theorem steps_checkOver_ended (hw : s.inst.wf = true) (hc : s.checking = false) {k : Nat} (hk : k ≤ u.length)
    (hrun : steps k (checkOver s u []) = .next l) (hcheck : l.checking = true) (hstep : step l = .next m)
    : m.inst.wf = true ∧
      ∀ v ts, steps (k + 1) (checkOver s (u ++ v) ts) = .next (m.withMore v (.await :: ts)) := by
  obtain ⟨hpos, hl, hrx, hmore⟩ := steps_checkOver hw hc (by omega) hrun hcheck
  obtain ⟨b, rest, hlrx⟩ : ∃ b rest, l.rx = b :: rest := by
    refine List.exists_cons_of_ne_nil fun hnil => ?_
    have hlen := congrArg List.length (hrx.symm.trans hnil)
    simp at hlen
    omega
  constructor
  · rcases hl.next hlrx hstep with ⟨hm, -⟩ | ⟨hwf, -⟩
    · exact hm.wf
    · exact hwf
  · intro v ts
    have hstep' := hl.step_withMore hlrx v ts
    rw [hstep] at hstep'
    rw [steps_add k 1 _ _ (hmore v ts), steps_of_next 0 _ _ hstep']
    rfl

/-- When the CHECK has ended, the host calls a second one. -/
theorem steps_checkAgain (hw : m.inst.wf = true) (hc : m.checking = false) {ts : List Turn}
    (ht : m.turns = .await :: .host checkCall :: ts) : steps 2 m = .next (m.turned ts).beginCheck := by
  rw [steps_of_next 1 _ _ (step_await_of_idle hw hc ht)]
  exact steps_of_next 0 _ _ (step_checkCall (s := m.turned _) hw hc rfl)

/-- When the CHECK has ended, the transport feeds `v` and the host calls a second one. -/
theorem steps_feedAndCheckAgain (hw : m.inst.wf = true) (hc : m.checking = false) {v : List Byte} {ts : List Turn}
    (ht : m.turns = .await :: .transport v :: .host checkCall :: ts) :
    steps 3 m = .next ((m.withMore v ts).turned ts).beginCheck := by
  rw [steps_of_next 2 _ _ (step_await_of_idle hw hc ht),
    steps_of_next 1 _ _ (step_transport (s := m.turned _) hw rfl)]
  exact steps_of_next 0 _ _ (step_checkCall (s := ((m.turned _).turned _).rxPush v) hw hc rfl)

/-- R302: an awaited CHECK that has taken all its bytes ends with FAIL; after FEED a second one stands where the first would have
with these bytes, but for the event port. -/
theorem State.Awaited.steps_feedAndCheckAgain {v : List Byte} {ts : List Turn}
    (h : m.Awaited (.transport v :: .host checkCall :: ts)) (hrx : m.rx = []) :
    steps 4 m = .next ((m.withMore v ts).turned ts) := by
  have hfail := step_of_fifoEmpty h.engineNext hrx
  have hself : ((m.withMore v ts).turned ts).beginCheck = (m.withMore v ts).turned ts := by
    rw [State.beginCheck, ← h.checking, ← h.result]; rfl
  rw [steps_of_next 3 _ _ hfail, ← hself]
  exact Machine.steps_feedAndCheckAgain (m := (m.turned _).endCheck .fail) h.wf rfl rfl

end

/-! ### The runs meet -/

/-- A run of two parts. -/
theorem steps_trans {a b : Nat} {s t u : State} (h : steps a s = .next t) (h' : steps b t = .next u) :
    steps (a + b) s = .next u := (steps_add a b s t h).trans h'

/-- Runs that meet in one state go on alike. -/
theorem steps_eq_of_meet {a b : Nat} {s t u : State} (h : steps a s = .next u) (h' : steps b t = .next u) (n : Nat) :
    steps (a + n) s = steps (b + n) t := (steps_add a n s u h).trans (steps_add b n t u h').symm

section
variable {s : State} {u : List Byte} (v : List Byte) (hw : s.inst.wf = true) (hc : s.checking = false)
include hw hc

/-- R174: the CHECK over `u` takes all of `u` and still runs. The two runs differ in the event port alone before the next step. -/
theorem whole_eq_split_of_running {m : State} (hrun : steps (1 + u.length) (checkOver s u []) = .next m)
    (hcheck : m.checking = true) (n : Nat) : steps (2 + u.length + n) (checkOver s (u ++ v) []) =
      steps (6 + u.length + n) (checkOver s u [.transport v, .host checkCall, .await]) := by
  obtain ⟨-, hm, hrx, hmore⟩ := steps_checkOver hw hc le_rfl hrun hcheck
  have hempty : (m.withMore [] [.await, .transport v, .host checkCall, .await]).rx = [] := by
    rw [State.withMore, hrx]; simp
  have hagain := (hm.withMore [] [.transport v, .host checkCall, .await]).steps_feedAndCheckAgain hempty
  have hsplit := hmore [] [.transport v, .host checkCall, .await]
  rw [State.withMore_withMore, List.nil_append] at hagain
  rw [List.append_nil] at hsplit
  calc steps (2 + u.length + n) (checkOver s (u ++ v) [])
      = steps (n + 1) (m.withMore v [.await]) := by
        rw [show 2 + u.length + n = 1 + u.length + (n + 1) by omega, steps_add _ _ _ _ (hmore v [])]
    _ = steps (n + 1) ((m.withMore v [.await]).turned [.await]) := by
        rw [steps_succ, steps_succ, ← step_withEvents (m.withMore v [.await]) []]; rfl
    _ = steps (6 + u.length + n) (checkOver s u [.transport v, .host checkCall, .await]) := by
        rw [show 6 + u.length + n = 1 + u.length + 4 + (n + 1) by omega,
          steps_add _ _ _ _ (steps_trans hsplit hagain)]

/-- R174: a frame completes within `u`. The two runs meet when their second CHECK begins. -/
theorem whole_eq_split_of_frame {k : Nat} {l m : State} (hk : k ≤ u.length) (hrun : steps k (checkOver s u []) = .next l)
    (hcheck : l.checking = true) (hstep : step l = .next m) (hended : m.checking = false) (n : Nat) :
    steps (3 + k + n) (checkOver s (u ++ v) [.host checkCall, .await]) =
      steps (4 + k + n) (checkOver s u [.transport v, .host checkCall, .await]) := by
  obtain ⟨hwm, hmore⟩ := steps_checkOver_ended hw hc hk hrun hcheck hstep
  have hwhole := hmore v [.host checkCall, .await]
  have hsplit := hmore [] [.transport v, .host checkCall, .await]
  have hagain := steps_checkAgain (m := m.withMore v _) (ts := [.await]) hwm hended rfl
  have hfed := steps_feedAndCheckAgain (m := m.withMore [] _) (v := v) (ts := [.await]) hwm hended rfl
  rw [List.append_nil] at hsplit
  rw [State.withMore_withMore, List.nil_append] at hfed
  rw [show 3 + k = k + 1 + 2 by omega, show 4 + k = k + 1 + 3 by omega]
  exact steps_eq_of_meet (steps_trans hwhole hagain) (steps_trans hsplit hfed) n

end

/-- Settles O10: the rounds over `u` are those over `u ++ v`; where the CHECK over `u` has ended, on the empty FIFO or with a frame,
FEED and a second CHECK meet the other run. -/
theorem chunkingInvariance : Obligations.ChunkingInvariance := by
  unfold Obligations.ChunkingInvariance
  intro s u v hw hc
  refine ⟨fun n m ts hn hrun hcheck => ?_, fun m hrun hcheck n => ?_,
    fun k l m hk hrun hcheck hstep hended => ⟨?_, fun n => ?_⟩⟩
  · obtain ⟨-, -, -, hmore⟩ := steps_checkOver hw hc hn hrun hcheck
    exact hmore v ts
  · exact whole_eq_split_of_running v hw hc hrun hcheck n
  · obtain ⟨-, hmore⟩ := steps_checkOver_ended hw hc hk hrun hcheck hstep
    rw [Nat.add_comm]
    exact hmore v [.host checkCall, .await]
  · exact whole_eq_split_of_frame v hw hc hk hrun hcheck hstep hended n

end Sys2Proof.Machine
end

section
/-! PROOFS. The classifier (41_classifier.md): which row a completed frame is, and what the rows answer that stand before every
decoder: an empty or unknown Data frame, a Data frame blocked in config mode, and an Ack that no request matches. -/

namespace Sys2Proof.Machine

open Sys2Proof

/-! ### The row of a completed frame -/

/-- R109: a payload's first byte is its sub-type, and the two known ones are parameters of the block. -/
theorem head_knownSubtype_iff (s : State) (b : Byte) (rest : List Byte) :
    (b :: rest).head?.any (knownSubtype s.ctx) = true ↔ b = s.inst.subBasic ∨ b = s.inst.subEnh := by
  simp [knownSubtype, State.ctx]

/-- R205: an Ack without a whole id and status word. -/
theorem selectRow_ack_short {s : State} {p : List Byte} (hl : p.length < 4) :
    selectRow s.ctx .ack p = .ackUnsolicited p := if_pos hl

/-- R207, R208: an Ack that the pending request does not match, or with no request pending. -/
theorem selectRow_ack_unmatched {s : State} {p : List Byte}
    (h : ¬ (s.pendValid = true ∧ le16 p 0 = s.pendCmd.ackId s.inst.profile)) :
    selectRow s.ctx .ack p = .ackUnsolicited p := by
  rcases selectAck_cases s.ctx p with hsel | ⟨c, hpend, -, hid, -⟩
  · exact hsel
  · obtain ⟨hvalid, rfl⟩ := (s.pending_eq_some c).mp hpend
    exact absurd ⟨hvalid, hid⟩ h

/-- Settles O4: the six Data rows by the sub-type byte, `PROFILE` and the head marker, the Ack rows by the length, the pending
request and its id. -/
theorem completedFrameSelectsItsRow : Obligations.CompletedFrameSelectsItsRow := by
  unfold Obligations.CompletedFrameSelectsItsRow
  intro s p
  refine ⟨?empty, ?unknown, ?docBasic, ?docEnhanced, ?vendorBasic, ?vendorEnhanced, ?badMarker, ?short, ?notPending,
    ?otherId, ?pending⟩
  case empty => rintro rfl; rfl
  case unknown =>
    rintro b rest rfl hbasic henh
    exact selectData_reserved (Bool.eq_false_iff.mpr fun h => ((head_knownSubtype_iff s b rest).mp h).elim hbasic henh)
  case docBasic => rintro rest rfl hprof; exact selectData_doc_basic (x := s.ctx) hprof
  case docEnhanced => rintro rest rfl hne hprof; exact selectData_doc_enhanced (x := s.ctx) hprof hne.symm
  case vendorBasic => rintro rest rfl hprof; exact selectData_vendor_basic (x := s.ctx) hprof
  case vendorEnhanced => rintro rest rfl hne hprof; exact selectData_vendor_enhanced (x := s.ctx) hprof hne.symm
  case badMarker =>
    rintro b rest rfl hb hmarker hprof
    have hm : (b :: rest)[1]? ≠ some 0xAA := by simpa [List.head?_eq_getElem?] using hmarker
    exact selectData_vendor_badMarker (x := s.ctx) hprof ((head_knownSubtype_iff s b rest).mpr hb) hm
  case short => exact selectRow_ack_short
  case notPending =>
    intro _ hpend
    exact selectRow_ack_unmatched fun ⟨hvalid, _⟩ => Bool.false_ne_true (hpend.symm.trans hvalid)
  case otherId => exact fun _ hid => selectRow_ack_unmatched fun ⟨_, h⟩ => hid h
  case pending => exact fun hl hvalid => selectAck_of_pending (x := s.ctx) hl ((s.pending_eq_some _).mpr ⟨hvalid, rfl⟩)

/-! ### The frame of the Data rows -/

/-- Every Data row discards its frame by a passive error or commits a snapshot (R210, 42_data_decoder.md R236), whatever payload
stands in it. -/
theorem exec_dataRow_outcome (s : State) (p : List Byte) :
    ∀ i ∈ [Instr.dataBasic p, .dataEnhanced p, .dataBasicVendor p, .dataEnhancedVendor p, .dataBadMarkerVendor p,
      .dataReservedSubtype p], DataOutcome s (exec i s) := by
  simp only [List.forall_mem_cons]
  exact ⟨execDataBasic_outcome p s, execDataEnhanced_outcome p s, execDataBasicVendor_outcome p s,
    execDataEnhancedVendor_outcome p s, execDataBadMarkerVendor_outcome p s, execDataReservedSubtype_outcome p s, nofun⟩

/-- Settles O27: a discarded frame writes its event and FAIL, a committed one the snapshot and DATA. -/
theorem dataRowsChangeOnlyTheSnapshot : Obligations.DataRowsChangeOnlyTheSnapshot := by
  unfold Obligations.DataRowsChangeOnlyTheSnapshot
  intro s t p i hi h
  rcases exec_dataRow_outcome s p i hi with ⟨e, he, ho⟩ | ⟨f, v, w, -, -, ho⟩ <;> cases h.symm.trans ho
  · rw [s.discard_passive e he]
    exact ⟨rfl, fun _ => rfl, .inr ⟨rfl, rfl, List.length_append⟩⟩
  · exact ⟨rfl, fun _ => rfl, .inl ⟨rfl, rfl, rfl⟩⟩

/-! ### Empty and unknown Data frames (R201, R202) -/

theorem exec_dataReservedSubtype (p : List Byte) (s : State) :
    exec (.dataReservedSubtype p) s = needBytes 1 p s fun s => .next (s.discard .unknownSubtype) := rfl

theorem exec_dataReservedSubtype_nil (s : State) :
    exec (.dataReservedSubtype []) s = .next (failedFrame s .shortPayload) := by
  rw [exec_dataReservedSubtype, needBytes_short 1 [] s _ Nat.one_pos]; rfl

theorem exec_dataReservedSubtype_of_ne_nil (s : State) {p : List Byte} (hp : p ≠ []) :
    exec (.dataReservedSubtype p) s = .next (failedFrame s .unknownSubtype) := by
  rw [exec_dataReservedSubtype, needBytes_enough 1 p s _ (List.length_pos_iff.mpr hp)]; rfl

/-- Settles O25: both frames are in the reserved row (`completedFrameSelectsItsRow`), whose checks stand before the config-mode
block (R211). -/
theorem unknownSubtypeIsRejected : Obligations.UnknownSubtypeIsRejected := by
  unfold Obligations.UnknownSubtypeIsRejected
  intro s p
  obtain ⟨hempty, hunknown, -⟩ := completedFrameSelectsItsRow s p
  refine ⟨?_, exec_dataReservedSubtype_of_ne_nil s, fun hp => ?_, fun b rest hp hbasic henh => ?_⟩
  · rintro rfl; exact exec_dataReservedSubtype_nil s
  · rw [hempty hp, hp]; exact exec_dataReservedSubtype_nil s
  · rw [hunknown b rest hp hbasic henh]
    exact exec_dataReservedSubtype_of_ne_nil s (hp ▸ List.cons_ne_nil b rest)

/-! ### Data frames in config mode (R203) -/

theorem dataBlocked_iff (s : State) : s.dataBlocked = true ↔ Blocked s := by simp [State.dataBlocked, Blocked]

/-- Settles O26: the rows of a known sub-type pass the config-mode block before any check of their own (R211). -/
theorem dataBlockedInConfigMode : Obligations.DataBlockedInConfigMode := by
  unfold Obligations.DataBlockedInConfigMode
  intro s p hcfg hblock
  have hb : s.dataBlocked = true := (dataBlocked_iff s).mpr ⟨hcfg, hblock⟩
  simp only [List.forall_mem_cons, exec, execDataBasic, execDataEnhanced, execDataBasicVendor, execDataEnhancedVendor,
    execDataBadMarkerVendor, unlessBlocked_blocked s _ hb]
  exact ⟨rfl, rfl, rfl, rfl, rfl, nofun⟩

/-! ### Unsolicited Acks (R205, R208) -/

/-- Settles O36: the unsolicited row tells the two lengths apart, and is the row of both payloads. -/
theorem unsolicitedAckIsIgnored : Obligations.UnsolicitedAckIsIgnored := by
  unfold Obligations.UnsolicitedAckIsIgnored
  intro s p ignored
  have hignored (hl : 4 ≤ p.length) : exec (.ackUnsolicited p) s = .next ignored := by
    rcases execAckUnsolicited_cases p s with ⟨hshort, -⟩ | ⟨-, ho⟩
    · exact absurd hshort (Nat.not_lt.mpr hl)
    · exact ho
  have hshort (hl : p.length < 4) : exec (.ackUnsolicited p) s = .next (failedFrame s .shortPayload) := by
    rcases execAckUnsolicited_cases p s with ⟨-, ho⟩ | ⟨hlong, -⟩
    · exact ho
    · exact absurd hl (Nat.not_lt.mpr hlong)
  refine ⟨hignored, hshort, fun hl hun => ?_, fun hl => ?_⟩
  · rw [selectRow_ack_unmatched hun]; exact hignored hl
  · rw [selectRow_ack_short hl]; exact hshort hl

end Sys2Proof.Machine
end

section
/-! PROOFS. The Data decoder (42_data_decoder.md): what each Data row answers when Data frames are not blocked, and that none of them
reads `ENHANCED`. -/

namespace Sys2Proof.Machine

open Sys2Proof

/-! ### The rows of a known sub-type, past the config-mode block (41_classifier.md R203, R211) -/

theorem unlessBlocked_of_not_blocked {s : State} (hb : ¬ Blocked s) (k : State → Host.Outcome State Fault Refusal) :
    unlessBlocked s k = k s :=
  unlessBlocked_open s k (Bool.eq_false_iff.mpr fun h => hb ((dataBlocked_iff s).mp h))

section
variable {s : State} (p : List Byte) (hb : ¬ Blocked s)
include hb

theorem exec_dataBasic_of_not_blocked : exec (.dataBasic p) s =
    needBytes 10 p s fun s => .next (s.commit (basicFields p 1) [] []) := by
  rw [exec, execDataBasic, unlessBlocked_of_not_blocked hb]

theorem exec_dataEnhanced_of_not_blocked : exec (.dataEnhanced p) s =
    needBytes (10 + 2 * gateCount s.cfg) p s fun t =>
      .next (t.commit (basicFields p 1) (slice p 10 (gateCount s.cfg)) (slice p (10 + gateCount s.cfg) (gateCount s.cfg))) := by
  rw [exec, execDataEnhanced, unlessBlocked_of_not_blocked hb]

theorem exec_dataBasicVendor_of_not_blocked : exec (.dataBasicVendor p) s =
    needMarker p s fun s => needBytes 11 p s fun s => .next (s.commit (basicFields p 2) [] []) := by
  rw [exec, execDataBasicVendor, unlessBlocked_of_not_blocked hb]

theorem exec_dataEnhancedVendor_of_not_blocked : exec (.dataEnhancedVendor p) s =
    needMarker p s fun s => needBytes 13 p s fun s => needBytes (15 + vendorMm p + vendorMs p) p s fun s =>
      .next (s.commit (basicFields p 2) (slice p 13 (min (vendorMm p + 1) gmax))
        (slice p (14 + vendorMm p) (min (vendorMs p + 1) gmax))) := by
  rw [exec, execDataEnhancedVendor, unlessBlocked_of_not_blocked hb]

theorem exec_dataBadMarkerVendor_of_not_blocked : exec (.dataBadMarkerVendor p) s =
    needBytes 2 p s fun s => .next (s.discard .badMarker) := by
  rw [exec, execDataBadMarkerVendor, unlessBlocked_of_not_blocked hb]

end

/-! ### What a check or a commit answers -/

/-- R236: a commit writes the snapshot of the payload's fields and answers DATA. -/
theorem commit_basicFields (s : State) (p : List Byte) (o : Nat) (v w : GateArray) :
    s.commit (basicFields p o) v w = committedFrame s (payloadSnapshot o p v w s.timeNow) := rfl

/-- R231 to R235: a payload shorter than its layout. -/
theorem needBytes_fails {n : Nat} {p : List Byte} (s : State) (k : State → Host.Outcome State Fault Refusal)
    (h : p.length < n) : needBytes n p s k = .next (failedFrame s .shortPayload) := needBytes_short n p s k h

/-- R231 to R235: the last length check of a row leaves the commit. -/
theorem needBytes_commits {n : Nat} {p : List Byte} (s : State) (o : Nat) (v w : GateArray) (h : n ≤ p.length) :
    needBytes n p s (fun s => .next (s.commit (basicFields p o) v w)) =
      .next (committedFrame s (payloadSnapshot o p v w s.timeNow)) := by
  rw [needBytes_enough n p s _ h, commit_basicFields]

/-- R233: the marker check looks for a second byte, and then at its value. -/
theorem needMarker_fails (p : List Byte) (s : State) (k : State → Host.Outcome State Fault Refusal) :
    (p.length < 2 → needMarker p s k = .next (failedFrame s .shortPayload)) ∧
    (2 ≤ p.length → byteAt p 1 ≠ 0xAA → needMarker p s k = .next (failedFrame s .badMarker)) :=
  ⟨needBytes_fails s _, needMarker_absent p s k⟩

/-! ### The rows of profile DOC (R231, R232) -/

/-- Settles O20: one length check stands before the commit. -/
theorem dataBasicCommits : Obligations.DataBasicCommits := by
  unfold Obligations.DataBasicCommits
  intro s p hb
  rw [exec_dataBasic_of_not_blocked p hb]
  exact ⟨needBytes_commits s 1 [] [], needBytes_fails s _⟩

/-- Settles O21: `NG` is `gateCount`, which sizes the length check and both arrays. -/
theorem dataEnhancedCommits : Obligations.DataEnhancedCommits := by
  unfold Obligations.DataEnhancedCommits
  intro s p hb ng
  rw [exec_dataEnhanced_of_not_blocked p hb, show gateCount s.cfg = ng from rfl]
  exact ⟨needBytes_commits s 1 (slice p 10 ng) (slice p (10 + ng) ng), needBytes_fails s _⟩

/-! ### The rows of profile VENDOR (R233 to R235) -/

/-- Settles O22: with the marker present one length check stands before the commit. -/
theorem dataBasicVendorCommits : Obligations.DataBasicVendorCommits := by
  unfold Obligations.DataBasicVendorCommits
  intro s p hb h2 hm
  rw [exec_dataBasicVendor_of_not_blocked p hb, needMarker_present p s _ h2 hm]
  exact ⟨needBytes_commits s 2 [] [], needBytes_fails s _⟩

/-- Settles O23: the first length check reaches the two counts, and the second the arrays that they size. -/
theorem dataEnhancedVendorCommits : Obligations.DataEnhancedVendorCommits := by
  unfold Obligations.DataEnhancedVendorCommits
  intro s p hb h2 hm mm ms
  rw [exec_dataEnhancedVendor_of_not_blocked p hb, needMarker_present p s _ h2 hm, show vendorMm p = mm from rfl,
    show vendorMs p = ms from rfl]
  refine ⟨needBytes_fails s _, fun h13 hshort => ?_, fun hlong => ?_⟩
  · rw [needBytes_enough 13 p s _ h13]
    exact needBytes_fails s _ hshort
  · rw [needBytes_enough 13 p s _ (by omega)]
    exact needBytes_commits s 2 (slice p 13 (min (mm + 1) 9)) (slice p (14 + mm) (min (ms + 1) 9)) hlong

/-- Settles O24: the two committing rows begin with the marker check, and the third is what that check answers without a marker. -/
theorem vendorHeadMarkerIsChecked : Obligations.VendorHeadMarkerIsChecked := by
  unfold Obligations.VendorHeadMarkerIsChecked
  intro s p hb
  simp only [List.forall_mem_cons, exec_dataBasicVendor_of_not_blocked p hb, exec_dataEnhancedVendor_of_not_blocked p hb,
    exec_dataBadMarkerVendor_of_not_blocked p hb]
  exact ⟨needMarker_fails p s _, needMarker_fails p s _,
    ⟨needBytes_fails s _, fun h2 _ => needBytes_enough 2 p s _ h2⟩, nofun⟩

/-! ### The Data rows do not read `ENHANCED` (R239) -/

/-- A branch on a condition that both runs share. -/
theorem OutcomesRelated.ite {R : State → State → Prop} {c : Prop} [Decidable c]
    {o o' u u' : Host.Outcome State Fault Refusal}
    (h : OutcomesRelated R o u) (h' : OutcomesRelated R o' u') :
    OutcomesRelated R (if c then o else o') (if c then u else u') := by
  split
  · exact h
  · exact h'

section
variable {R : State → State → Prop} {s t : State} (hd : ∀ e : Event, R (s.discard e) (t.discard e))
  (p : List Byte) (n : Nat) {k k' : State → Host.Outcome State Fault Refusal} (h : OutcomesRelated R (k s) (k' t))
include hd h

/-! A check of two states that discard frames alike: what is behind it decides. -/

theorem unlessBlocked_related (hb : s.dataBlocked = t.dataBlocked) :
    OutcomesRelated R (unlessBlocked s k) (unlessBlocked t k') := by
  unfold unlessBlocked
  rw [hb]
  exact .ite (hd .dataBlocked) h

theorem needBytes_related : OutcomesRelated R (needBytes n p s k) (needBytes n p t k') :=
  .ite (hd .shortPayload) h

theorem needMarker_related : OutcomesRelated R (needMarker p s k) (needMarker p t k') := by
  unfold needMarker
  exact needBytes_related hd p 2 (.ite (hd .badMarker) h)

end

/-- The second state is the first but for `ENHANCED`, which is `e` there. -/
def SetsEnhanced (e : Bool) (t u : State) : Prop := { t with enhanced := e } = u

/-- Discarding a frame leaves `ENHANCED` as it stands. -/
theorem discard_setsEnhanced (s : State) (e : Bool) (ev : Event) :
    SetsEnhanced e (s.discard ev) ({ s with enhanced := e }.discard ev) := by cases ev <;> rfl

/-- R236: a commit neither reads nor writes `ENHANCED`. -/
theorem commit_setsEnhanced (s : State) (e : Bool) (f : BasicFields) (v w : GateArray) :
    OutcomesRelated (SetsEnhanced e) (.next (s.commit f v w)) (.next ({ s with enhanced := e }.commit f v w)) := rfl

/-- Settles O29: every check and the commit are alike, whatever `ENHANCED` is. -/
theorem dataDecoderIgnoresEnhanced : Obligations.DataDecoderIgnoresEnhanced := by
  unfold Obligations.DataDecoderIgnoresEnhanced
  intro s p e
  have hd := discard_setsEnhanced s e
  have hcommit := commit_setsEnhanced s e
  simp only [List.forall_mem_cons, exec, execDataBasic, execDataEnhanced, execDataBasicVendor, execDataEnhancedVendor,
    execDataBadMarkerVendor, execDataReservedSubtype]
  refine ⟨?basic, ?enhanced, ?basicVendor, ?enhancedVendor, ?badMarker, ?reserved, nofun⟩
  case basic => exact unlessBlocked_related hd (needBytes_related hd p 10 (hcommit _ _ _)) rfl
  case enhanced => exact unlessBlocked_related hd (needBytes_related hd p _ (hcommit _ _ _)) rfl
  case basicVendor =>
    exact unlessBlocked_related hd (needMarker_related hd p (needBytes_related hd p 11 (hcommit _ _ _))) rfl
  case enhancedVendor =>
    exact unlessBlocked_related hd (needMarker_related hd p (needBytes_related hd p 13
      (needBytes_related hd p _ (hcommit _ _ _)))) rfl
  case badMarker => exact unlessBlocked_related hd (needBytes_related hd p 2 (hd .badMarker)) rfl
  case reserved => exact needBytes_related hd p 1 (hd .unknownSubtype)

end Sys2Proof.Machine
end

section
/-! PROOFS. The Ack decoder (43_ack_decoder.md): the three answers of an Ack row in the words of the statements, and what each
command's accepted Ack writes. -/

namespace Sys2Proof.Machine

open Sys2Proof

/-! ### The three answers of an Ack row (R260 to R262) -/

section
variable (s : State) (c : Cmd) {p : List Byte}

theorem exec_ackInstr_rejected (hst : le16 p 2 ≠ 0) :
    exec (ackInstr c p) s = .next (ackedFrame s (le16 p 0) (le16 p 2)) :=
  (exec_ackInstr c p s).trans (acceptAck_rejected c _ p s hst)

theorem exec_ackInstr_short (hst : le16 p 2 = 0) (hl : p.length < ackNeed c) :
    exec (ackInstr c p) s = .next (failedFrame s .shortPayload) :=
  (exec_ackInstr c p s).trans (acceptAck_short c _ p s hst hl)

theorem exec_ackInstr_accepted (hst : le16 p 2 = 0) (hl : ackNeed c ≤ p.length) :
    exec (ackInstr c p) s = .next (ackedFrame (ackEffect p c s) (le16 p 0) 0) :=
  (exec_ackInstr c p s).trans (acceptAck_accepted c _ p s hst hl)

end

/-! ### The obligations -/

/-- Settles O30: the status word stands before every other check of an Ack row. -/
theorem rejectedAckEndsTheRequest : Obligations.RejectedAckEndsTheRequest := by
  unfold Obligations.RejectedAckEndsTheRequest
  exact fun s c _ hst => exec_ackInstr_rejected s c hst

/-- Settles O31: the bounds are `ackNeed` of the row's command, 4 for the commands without return data. -/
theorem shortAckKeepsTheRequest : Obligations.ShortAckKeepsTheRequest := by
  unfold Obligations.ShortAckKeepsTheRequest
  intro s p hst
  have hshort (c : Cmd) : p.length < ackNeed c → exec (ackInstr c p) s = .next (failedFrame s .shortPayload) :=
    exec_ackInstr_short s c hst
  have hneed : ∀ c ∈ [Cmd.exitCfg, .enhOn, .enhOff, .setRes, .setGateThr, .setMaxgateNoone, .factoryReset, .reboot,
      .btOn, .btOff], ackNeed c = 4 := by decide
  exact ⟨hshort .enterCfg, hshort .readMac, hshort .readFw, hshort .readRes, hshort .readParams,
    fun hl c hc => hshort c ((hneed c hc).symm ▸ hl)⟩

/-- Settles O32: the effects of the four mode commands (R263 to R266). -/
theorem modeAcksWriteTheModeFlags : Obligations.ModeAcksWriteTheModeFlags := by
  unfold Obligations.ModeAcksWriteTheModeFlags
  intro s p hst
  exact ⟨exec_ackInstr_accepted s .enterCfg hst, exec_ackInstr_accepted s .exitCfg hst,
    exec_ackInstr_accepted s .enhOn hst, exec_ackInstr_accepted s .enhOff hst⟩

/-- Settles O33: the effects of the three read commands (R267 to R269). -/
theorem readAcksWriteTheirRegisters : Obligations.ReadAcksWriteTheirRegisters := by
  unfold Obligations.ReadAcksWriteTheirRegisters
  intro s p hst
  exact ⟨exec_ackInstr_accepted s .readMac hst, exec_ackInstr_accepted s .readFw hst,
    exec_ackInstr_accepted s .readRes hst⟩

/-- Settles O34: the effect of READ_PARAMS, whose `RANGE` is the larger maximum (`maxGate_toNat`). -/
theorem readParamsAckWritesTheGroup : Obligations.ReadParamsAckWritesTheGroup := by
  unfold Obligations.ReadParamsAckWritesTheGroup
  intro s p hst hl n
  exact ⟨maxGate (byteAt p 6) (byteAt p 7), maxGate_toNat _ _, exec_ackInstr_accepted s .readParams hst hl⟩

/-- Settles O35: the seven commands have no effect of their own, so an accepted Ack only ends the request. -/
theorem setAcksWriteNoRegister : Obligations.SetAcksWriteNoRegister := by
  unfold Obligations.SetAcksWriteNoRegister
  intro s p hst hl
  simp only [List.forall_mem_cons]
  exact ⟨exec_ackInstr_accepted s .setRes hst hl, exec_ackInstr_accepted s .setGateThr hst hl,
    exec_ackInstr_accepted s .setMaxgateNoone hst hl, exec_ackInstr_accepted s .factoryReset hst hl,
    exec_ackInstr_accepted s .reboot hst hl, exec_ackInstr_accepted s .btOn hst hl,
    exec_ackInstr_accepted s .btOff hst hl, nofun⟩

end Sys2Proof.Machine
end

section
/-! PROOFS. CHECK and FEED (44_host_ops.md R302 to R305, R330): a running CHECK executes the first frame of the FIFO, ends within the
bytes that it finds there, and a machine without host turns comes to rest. -/

namespace Sys2Proof.Machine

open Sys2Proof

/-! ### FEED and the two ends of an empty CHECK -/

/-- Settles O15: the transport turn of FEED does not look at the CHECK. -/
theorem feedAppendsToTheReceiveFifo : Obligations.FeedAppendsToTheReceiveFifo := by
  unfold Obligations.FeedAppendsToTheReceiveFifo
  exact fun s bs => ⟨rfl, fun ts hw hturn => step_transport hw hturn⟩

/-- Settles O16, by the call of CHECK and by its round on an empty FIFO. -/
theorem checkBeginsAndFailsOnAnEmptyFifo : Obligations.CheckBeginsAndFailsOnAnEmptyFifo := by
  unfold Obligations.CheckBeginsAndFailsOnAnEmptyFifo
  exact ⟨fun s => rfl, fun s ts hnext hrx => step_of_fifoEmpty hnext hrx⟩

/-! ### The first frame of the FIFO -/

/-- A run of one step. -/
theorem steps_one (s : State) : steps 1 s = step s := by
  rw [steps_succ]
  cases step s <;> rfl

/-- A CHECK that goes on by itself takes a round and leaves the turns. -/
theorem CheckGoesOn.engineNext {s : State} (h : CheckGoesOn s) (hw : s.inst.wf = true) (hc : s.checking = true) :
    EngineNext s s.turns := ⟨hw, hc, .inr ⟨h, rfl⟩⟩

/-- R172, R302: a CHECK over bytes that complete a frame takes one round per byte, and the last runs the row of the payload. -/
theorem CompletesFrame.steps_eq_exec {c : Instance} {k : FrameKind} {p bs rest : List Byte} {a a' : Asm}
    (h : CompletesFrame c k p bs a a') {s : State} (hinst : s.inst = c) (hasm : s.asm = a) (hw : c.wf = true)
    (hc : s.checking = true) (hgo : CheckGoesOn s) (hrx : s.rx = bs ++ rest) :
    steps bs.length s = exec (selectRow s.ctx k p) { s with rx := rest, asm := a', events := [] } := by
  induction h generalizing s with
  | last hb =>
    have hstep := step_of_roundTakes ⟨hgo.engineNext (hinst ▸ hw) hc, hrx⟩
    rw [hinst, hasm, hb] at hstep
    exact (steps_one s).trans hstep
  | @cons b bs a a₁ a' hb _ ih =>
    have hstep := step_of_roundTakes ⟨hgo.engineNext (hinst ▸ hw) hc, hrx⟩
    rw [hinst, hasm, hb] at hstep
    rw [List.length_cons, steps_of_next _ _ _ hstep]
    exact ih (s := afterRound s (bs ++ rest) s.turns a₁ []) hinst rfl hc hgo rfl

/-- Settles O19: the encoded frame completes at its last byte, and a frame decodes to the row that its payload selects. -/
theorem checkExecutesTheFirstFrame : Obligations.CheckExecutesTheFirstFrame := by
  unfold Obligations.CheckExecutesTheFirstFrame
  intro s k p rest i hw hc hgo hseek hwn hp hrx hdecode
  obtain ⟨-, hcap, -, -⟩ := of_decide_eq_true hw
  have hlen : p.length < 65536 := by
    have hle : p.length ≤ s.inst.cap := hp.trans (Nat.sub_le _ _)
    omega
  obtain ⟨a', hframe, hseek', hwn'⟩ := frameBytes_completes (k := k) hw hp hseek hwn
  refine ⟨a', hseek', hwn', ?_⟩
  rw [← frameBytes_length k p, ← selectRow_of_decode hlen hdecode]
  exact hframe.steps_eq_exec rfl rfl hw hc hgo hrx

/-! ### The round under the invariant -/

/-- The meaning of a frame does not touch the receive FIFO (R177). -/
theorem FrameOutcome.rx {s t : State} {k : FrameKind} {p : List Byte} (h : FrameOutcome s k p t) : t.rx = s.rx := by
  cases h with
  | accepted => rw [ackEffect_frame p s.pendCmd s]; rfl
  | _ => rfl

/-- R302, R304: under the invariant a round answers; it ends the CHECK, or takes a byte and goes on. -/
theorem step_round {s : State} {ts : List Turn} (hs : s.Inv) (h : EngineNext s ts) :
    ∃ t, step s = .next t ∧ t.turns = ts ∧
      (t.checking = false ∧ t.rx <:+ s.rx ∨ t.checking = true ∧ ∃ b, s.rx = b :: t.rx) := by
  have ⟨_, hc, _⟩ := h
  cases hrx : s.rx with
  | nil => exact ⟨_, step_of_fifoEmpty h hrx, rfl, .inl ⟨rfl, hrx ▸ List.suffix_refl _⟩⟩
  | cons b rest =>
    rw [step_of_roundTakes ⟨h, hrx⟩]
    cases hb : byteStep s.inst b s.asm with
    | none a => exact ⟨_, rfl, rfl, .inr ⟨hc, b, rfl⟩⟩
    | error e a =>
      refine ⟨_, rfl, State.takeError_turns _ e, .inr ⟨(State.takeError_checking _ e).trans hc, b, ?_⟩⟩
      rw [State.takeError_rx]; rfl
    | complete k p a =>
      obtain ⟨t, ht, hended⟩ := exec_selectRow_next s.ctx k p (afterRound s rest ts a [])
      have hframe := frameOutcome_of_exec (s := afterRound s rest ts a []) ht
      obtain ⟨-, -, hturns⟩ := hframe.ends
      refine ⟨t, ht, hturns, .inl ⟨hended, ?_⟩⟩
      rw [hframe.rx]
      exact List.suffix_cons b rest
    | fault f => exact absurd hb (byteStep_ne_fault hs b f)

/-- Settles O17, by induction on the bytes of the FIFO. -/
theorem checkEndsWithinTheFifo : Obligations.CheckEndsWithinTheFifo := by
  unfold Obligations.CheckEndsWithinTheFifo
  intro s hs hc hgo
  generalize hl : s.rx = l
  induction l generalizing s with
  | nil =>
    obtain ⟨t, hstep, -, ⟨hended, hrx⟩ | ⟨-, b, hrx⟩⟩ := step_round hs (hgo.engineNext hs.inst_wf hc)
    · exact ⟨1, t, le_rfl, (steps_one s).trans hstep, hended, hl ▸ hrx⟩
    · cases hl.symm.trans hrx
  | cons d l ih =>
    obtain ⟨t, hstep, hturns, ⟨hended, hrx⟩ | ⟨hgoes, b, hrx⟩⟩ := step_round hs (hgo.engineNext hs.inst_wf hc)
    · exact ⟨1, t, Nat.succ_le_succ (Nat.zero_le _), (steps_one s).trans hstep, hended, hl ▸ hrx⟩
    · obtain ⟨rfl, htl⟩ := List.cons.inj (hl.symm.trans hrx)
      have hgo' : CheckGoesOn t := by rwa [CheckGoesOn, hturns]
      obtain ⟨n, u, hn, hrun, hended, hsuffix⟩ := ih t (invariantKeptByEveryStep s t hs hstep) hgoes hgo' htl.symm
      exact ⟨n + 1, u, Nat.succ_le_succ hn, (steps_of_next n s t hstep).trans hrun, hended,
        hsuffix.trans (List.suffix_cons d l)⟩

/-! ### Coming to rest -/

/-- All turns are taken and no CHECK runs. -/
def State.AtRest (s : State) : Prop := s.turns = [] ∧ s.checking = false

/-- The turns of `t` are among the last of `s`, and less is left to do (`State.work`). -/
def Progress (s t : State) : Prop := t.turns <:+ s.turns ∧ t.work < s.work

theorem State.atRest_of_work_eq_zero {s : State} (h : s.work = 0) : s.AtRest := by
  obtain ⟨⟨hturns, -⟩, hc⟩ : ((s.turns.map turnWork).sum = 0 ∧ s.rx.length = 0) ∧ (if s.checking then 1 else 0) = 0 := by
    simpa only [State.work, Nat.add_eq_zero_iff] using h
  constructor
  · cases ht : s.turns with
    | nil => rfl
    | cons u ts =>
      rw [ht] at hturns
      cases u <;> simp [turnWork] at hturns
  · simpa using hc

/-- A turn that is taken and leaves the CHECK as it is costs less than its own work. -/
theorem progress_of_turnTaken {s t : State} {u : Turn} {ts : List Turn} (hs : s.turns = u :: ts) (ht : t.turns = ts)
    (hc : t.checking = s.checking) (hrx : t.rx.length < s.rx.length + turnWork u) : Progress s t := by
  constructor
  · rw [hs, ht]; exact List.suffix_cons u ts
  · simp only [State.work, hs, ht, hc, List.map_cons, List.sum_cons]
    omega

/-- Progress of a round: it takes a byte or ends the CHECK. -/
theorem progress_of_round {s t : State} {ts : List Turn} (h : EngineNext s ts) (hturns : t.turns = ts)
    (ht : t.checking = false ∧ t.rx <:+ s.rx ∨ t.checking = true ∧ ∃ b, s.rx = b :: t.rx) : Progress s t := by
  obtain ⟨-, hc, hnext⟩ := h
  have hsuffix : t.turns <:+ s.turns := by
    rcases hnext with he | ⟨-, rfl⟩
    · rw [he, hturns]; exact List.suffix_cons _ ts
    · rw [hturns]
  refine ⟨hsuffix, ?_⟩
  have hsum : (t.turns.map turnWork).sum ≤ (s.turns.map turnWork).sum :=
    (hsuffix.sublist.map turnWork).sum_le_sum fun _ _ => Nat.zero_le _
  rcases ht with ⟨hended, hrx⟩ | ⟨hgoes, b, hrx⟩
  · have hlen := hrx.length_le
    simp only [State.work, hc, hended, if_true, Bool.false_eq_true, if_false]
    omega
  · simp only [State.work, hc, hgoes, hrx, List.length_cons]
    omega

theorem checkGoesOn_iff {s : State} : CheckGoesOn s ↔ s.turns = [] ∨ s.turns.head? = some .await :=
  or_congr_right List.head?_eq_some_iff.symm

/-- A step runs what it fetches. -/
theorem step_of_fetch {s : State} {f : Fetched} (hf : fetch s = f) : step s = f.run :=
  (step_eq_run s).trans (congrArg Fetched.run hf)

/-- R304, R305: without host turns a machine that is not at rest takes a step, which makes progress. -/
theorem step_progress {s : State} (hs : s.Inv) (henv : s.turns.all Turn.environment = true) (hrest : ¬ s.AtRest) :
    ∃ t, step s = .next t ∧ Progress s t := by
  have hfree : s.rx.length < s.rx.length + 2 := Nat.lt_add_of_pos_right Nat.two_pos
  rcases fetch_cases s with ⟨hw, -⟩ | ⟨hw, ⟨ts, hc, hturn, -⟩ | ⟨ts, hc, hturn, hf⟩ | ⟨c, ts, hturn, -⟩ |
      ⟨c, ts, hturn, -⟩ | ⟨bs, ts, hturn, hf⟩ | ⟨n, ts, hturn, hf⟩ | ⟨now, ts, hturn, hf⟩⟩
  · exact absurd (hw.symm.trans hs.inst_wf) Bool.false_ne_true
  · have hnext : EngineNext s ts := ⟨hw, hc, hturn.imp_right fun ⟨he, hgo⟩ =>
      ⟨checkGoesOn_iff.mpr (he ▸ hgo), he.symm⟩⟩
    obtain ⟨t, hstep, hturns, ht⟩ := step_round hs hnext
    exact ⟨t, hstep, progress_of_round hnext hturns ht⟩
  · refine ⟨_, step_of_fetch hf, ?_⟩
    rcases hturn with hturn | hturn | ⟨hturn, -⟩
    · exact progress_of_turnTaken hturn rfl rfl hfree
    · exact progress_of_turnTaken hturn rfl rfl hfree
    · exact absurd ⟨hturn, hc⟩ hrest
  · simp [hturn, Turn.environment] at henv
  · simp [hturn, Turn.environment] at henv
  · refine ⟨_, step_of_fetch hf, progress_of_turnTaken hturn rfl rfl ?_⟩
    have hlen : (s.rx ++ bs).length < s.rx.length + (2 + bs.length) := by rw [List.length_append]; omega
    exact hlen
  · exact ⟨_, step_of_fetch hf, progress_of_turnTaken hturn rfl rfl hfree⟩
  · exact ⟨_, step_of_fetch hf, progress_of_turnTaken hturn rfl rfl hfree⟩

/-- A machine at rest stays there. -/
theorem State.AtRest.step {s : State} (h : s.AtRest) (hw : s.inst.wf = true) : Machine.step s = .next (s.turned []) :=
  step_nil_of_idle hw h.2 h.1

/-- R304, R305: as many steps as the work that is left bring the machine to rest. -/
theorem steps_reach_rest (n : Nat) {s : State} (hs : s.Inv) (henv : s.turns.all Turn.environment = true)
    (hn : s.AtRest ∨ s.work ≤ n) : ∃ t, steps n s = .next t ∧ t.AtRest ∧ t.Inv := by
  induction n generalizing s with
  | zero =>
    have hrest : s.AtRest := hn.elim id fun h0 => State.atRest_of_work_eq_zero (Nat.le_zero.mp h0)
    exact ⟨s, rfl, hrest, hs⟩
  | succ n ih =>
    by_cases hrest : s.AtRest
    · have hstep := hrest.step hs.inst_wf
      rw [steps_of_next n _ _ hstep]
      exact ih (invariantKeptByEveryStep _ _ hs hstep) rfl (.inl ⟨rfl, hrest.2⟩)
    · obtain ⟨t, hstep, hturns, hwork⟩ := step_progress hs henv hrest
      have hle := hn.resolve_left hrest
      rw [steps_of_next n _ _ hstep]
      refine ih (invariantKeptByEveryStep _ _ hs hstep) ?_ (.inr (by omega))
      exact List.all_eq_true.mpr fun u hu => List.all_eq_true.mp henv u (hturns.mem hu)

/-- Settles O18: every step makes progress, and the work that is left bounds the steps. -/
theorem machineComesToRest : Obligations.MachineComesToRest := by
  unfold Obligations.MachineComesToRest
  intro s hs henv
  obtain ⟨t, hrun, ⟨hturns, hc⟩, ht⟩ := steps_reach_rest s.work hs henv (.inr le_rfl)
  exact ⟨t, hrun, hturns, hc, ht⟩

end Sys2Proof.Machine
end

section
/-! PROOFS. The atomic host operations (44_host_ops.md R306 to R326): what TX appends, when it is turned away and what it leaves
alone, what TIMEOUT ends, and the register map that RD reads. -/

namespace Sys2Proof.Machine

open Sys2Proof

/-! ### TX (R310) -/

/-- R111: a command frame, by the length of its parameters. -/
theorem commandFrame_eq (c : Cmd) {q : List Byte} {n : Nat} (hq : q.length = n) : commandFrame c q =
    (headerMagic .ack).toList ++ bytes16 (BitVec.ofNat 16 (2 + n)) ++ (bytes16 c.id ++ q) ++ (tailMagic .ack).toList := by
  have hlen : (bytes16 c.id ++ q).length = 2 + n := by rw [← hq]; exact List.length_append
  rw [commandFrame, frameBytes, hlen]

/-- R310, R111: SENT, in the words of the statements. -/
theorem transmit_sentFrame {s : State} {c : Cmd} {q : List Byte} {n : Nat} (hq : q.length = n) (hpend : s.pendValid = false)
    (hmode : gated c = true → s.inCfg = true) : transmit c q s = .next (sentFrame s c
      ((headerMagic .ack).toList ++ bytes16 (BitVec.ofNat 16 (2 + n)) ++ (bytes16 c.id ++ q) ++ (tailMagic .ack).toList)) := by
  rw [← commandFrame_eq c hq]
  exact transmit_sent c q s hpend hmode

/-- R120, R121: the gated commands. -/
theorem gated_of_mem {c : Cmd} (h : c ∈ gatedCommands) : gated c = true := by
  revert c; decide

/-- Settles O38: none of the six is gated, and each frame is its command's id and parameters in the frame layout (R111). -/
theorem ungatedTransmitSends : Obligations.UngatedTransmitSends := by
  unfold Obligations.UngatedTransmitSends
  intro s hpend
  have hsent (c : Cmd) (q : List Byte) (n : Nat) (hq : q.length = n) (hc : gated c = false) :=
    transmit_sentFrame (c := c) hq hpend fun hg => absurd (hc.symm.trans hg) Bool.false_ne_true
  exact ⟨hsent .enterCfg paramsOne 2 rfl rfl, hsent .exitCfg [] 0 rfl rfl, hsent .readMac paramsOne 2 rfl rfl,
    hsent .readFw [] 0 rfl rfl, hsent .readRes [] 0 rfl rfl, hsent .readParams [] 0 rfl rfl⟩

/-- Settles O39: `IN_CFG` decides between GATED and SENT for the nine gated commands, and the operands stand in the frame as given. -/
theorem gatedTransmitSends : Obligations.GatedTransmitSends := by
  unfold Obligations.GatedTransmitSends
  intro s r a b d hpend
  constructor
  · intro hmode
    have hgated (c : Cmd) (q : List Byte) (hc : gated c = true) := transmit_gated c q s hpend hc hmode
    simp only [List.forall_mem_cons]
    exact ⟨hgated .enhOn [] rfl, hgated .enhOff [] rfl, hgated .setRes _ rfl, hgated .setGateThr _ rfl,
      hgated .setMaxgateNoone _ rfl, hgated .factoryReset [] rfl, hgated .reboot [] rfl, hgated .btOn _ rfl,
      hgated .btOff _ rfl, nofun⟩
  · intro hmode
    have hsent (c : Cmd) (q : List Byte) (n : Nat) (hq : q.length = n) :=
      transmit_sentFrame (c := c) hq hpend fun _ => hmode
    exact ⟨hsent .enhOn [] 0 rfl, hsent .enhOff [] 0 rfl, hsent .setRes (paramsSetRes r) 2 rfl,
      hsent .setGateThr (paramsSetGateThr a b d) 18 rfl, hsent .setMaxgateNoone (paramsSetMaxgateNoone a b d) 18 rfl,
      hsent .factoryReset [] 0 rfl, hsent .reboot [] 0 rfl, hsent .btOn paramsOne 2 rfl, hsent .btOff paramsZero 2 rfl⟩

/-- Settles O40: the pending request is looked at first, then the mode (R310). -/
theorem transmitTurnedAway : Obligations.TransmitTurnedAway := by
  unfold Obligations.TransmitTurnedAway
  intro s c a b d
  rw [exec_txInstr]
  exact ⟨transmit_busy c _ s, fun hpend hmode hc => transmit_gated c _ s hpend (gated_of_mem hc) hmode⟩

/-- R100, R111: a command frame is its parameters and twelve bytes more. -/
theorem commandFrame_length (c : Cmd) (q : List Byte) : (commandFrame c q).length = 12 + q.length := by
  rw [commandFrame, frameBytes_length, List.length_append, ← Nat.add_assoc]
  rfl

/-- R128: the lengths of the command frames. -/
theorem commandFrame_txParams_length (c : Cmd) (a b d : Word32) : (commandFrame c (txParams a b d c)).length =
    if c ∈ [Cmd.setGateThr, .setMaxgateNoone] then 30
    else if c ∈ [Cmd.enterCfg, .readMac, .setRes, .btOn, .btOff] then 14 else 12 := by
  rw [commandFrame_length]
  cases c <;> rfl

/-- Settles O41: TX turned away writes the ports only, and TX answered SENT the frame and the request as well. -/
theorem transmitChangesOnlyRequestAndFifo : Obligations.TransmitChangesOnlyRequestAndFifo := by
  unfold Obligations.TransmitChangesOnlyRequestAndFifo
  intro s t c a b d h
  rw [exec_txInstr] at h
  rcases transmit_cases c (txParams a b d c) s with ⟨-, ho⟩ | ⟨-, -, -, ho⟩ | ⟨-, -, ho⟩ <;> cases h.symm.trans ho
  · exact ⟨rfl, fun _ => rfl, List.prefix_refl _, nofun, fun _ => ⟨rfl, rfl, rfl⟩⟩
  · exact ⟨rfl, fun _ => rfl, List.prefix_refl _, nofun, fun _ => ⟨rfl, rfl, rfl⟩⟩
  · refine ⟨rfl, fun _ => rfl, List.prefix_append _ _, fun _ => ⟨rfl, rfl, rfl, ?_⟩, fun hne => absurd rfl hne⟩
    rw [← commandFrame_txParams_length c a b d]
    exact List.length_append

/-! ### TIMEOUT (R307) -/

/-- R307: `IN_CFG` after TIMEOUT with a request pending. -/
theorem exec_timeout_pending {s : State} (hpend : s.pendValid = true) : exec .timeout s = .next { s with
    inCfg := s.inCfg && s.pendCmd != .exitCfg, pendValid := false, result := some .done
    events := s.events ++ [.commandTimeout] } := by
  rw [exec_timeout_eq, if_pos hpend]
  simp only [State.takeError, State.expirePending, hpend, Bool.true_and]
  rfl

/-- Settles O45: `IN_CFG` is forced to 0 for EXIT_CFG alone. -/
theorem timeoutResolvesTheRequest : Obligations.TimeoutResolvesTheRequest := by
  unfold Obligations.TimeoutResolvesTheRequest
  intro s
  refine ⟨fun hpend hcmd => ?_, fun hpend hcmd => ?_, fun hpend => ?_⟩
  · rw [exec_timeout_pending hpend, hcmd, bne_self_eq_false, Bool.and_false]
  · rw [exec_timeout_pending hpend, bne_iff_ne.mpr hcmd, Bool.and_true]
  · exact (exec_timeout_eq s).trans (if_neg (by simp [hpend]))

/-! ### RD (R306) -/

/-- R306: RD answers its register. -/
theorem rdGives_iff (s : State) (i g v : Word32) : RdGives s i g v ↔ s.readReg i g = v := by
  constructor
  · intro h
    cases h
    rfl
  · rintro rfl
    rfl

theorem element_eq_elementOrZero (v : List Byte) (g : Word32) : element v g = elementOrZero v g := by
  unfold element elementOrZero
  split
  · next hlt => rw [List.getD_eq_getElem v 0 hlt]
  · next hge => rw [List.getD_eq_default v 0 (Nat.le_of_not_lt hge)]; rfl

/-- Settles O47: the named indexes read their registers, `CFG_STATE` in the order of its cases (R58), and no other index is a case of
`readReg`. -/
theorem rdReturnsTheRegisterMap : Obligations.RdReturnsTheRegisterMap := by
  unfold Obligations.RdReturnsTheRegisterMap
  intro s g
  simp only [rdGives_iff, ← element_eq_elementOrZero]
  refine ⟨rfl, rfl, rfl, rfl, rfl, rfl, rfl, rfl, rfl, rfl, rfl, rfl, rfl, rfl, rfl, rfl, rfl, rfl, rfl, rfl, ?res, rfl, rfl,
    rfl, rfl, rfl, rfl, rfl, rfl, rfl, rfl, rfl, rfl, rfl, ?cfgState, ?reserved⟩
  case res => show num s.cfg.res.code = _; cases s.cfg.res <;> rfl
  case cfgState =>
    show num s.cfgState.code = _
    unfold State.cfgState
    simp only [Bool.and_eq_true, beq_iff_eq]
    repeat' split
    all_goals rfl
  case reserved =>
    intro i hi
    unfold State.readReg
    split
    case h_36 => rfl
    all_goals next heq => rw [heq] at hi; exact absurd (by decide) hi

/-! ### The reserved codes (R308, R326) -/

/-- Settles O48: the arms of the four reserved codes are refusals. -/
theorem reservedCodesAreRefused : Obligations.ReservedCodesAreRefused := by
  unfold Obligations.ReservedCodesAreRefused
  exact fun s => ⟨rfl, rfl, rfl, rfl⟩

end Sys2Proof.Machine
end

section
/-! PROOFS. The host's requests (44_host_ops.md R340, R343): each host operation of the driver keeps the invariant and answers what its
call answers, so a request ends with none pending. -/

namespace Sys2Proof.Machine

open Sys2Proof

/-! ### Runs under the invariant -/

/-- A run that answers a state took its first step. -/
theorem steps_succ_eq_next {n : Nat} {s t : State} (h : steps (n + 1) s = .next t) :
    ∃ u, step s = .next u ∧ steps n u = .next t := by
  rw [steps_succ] at h
  cases hs : step s with
  | next u => rw [hs] at h; exact ⟨u, rfl, h⟩
  | fault f => rw [hs] at h; cases h
  | refused r => rw [hs] at h; cases h

/-- Every run keeps the invariant. -/
theorem State.Inv.steps (n : Nat) {s t : State} (hs : s.Inv) (h : Machine.steps n s = .next t) : t.Inv := by
  induction n generalizing s with
  | zero => cases h; exact hs
  | succ n ih =>
    obtain ⟨u, hstep, hrun⟩ := steps_succ_eq_next h
    exact ih (invariantKeptByEveryStep s u hs hstep) hrun

/-- The invariant does not read the turns, so a settled call keeps it. -/
theorem State.Inv.settle {s t : State} {ts : List Turn} (hs : s.Inv) (h : Machine.settle { s with turns := ts } = .next t) :
    t.Inv :=
  have hturned : State.Inv { s with turns := ts } := { hs with }
  hturned.steps _ h

/-- Every operation of the driver keeps the invariant, whatever turns the environment takes during it. -/
theorem State.Inv.callWith {s t : State} {i : Instr} {env : List Turn} (hs : s.Inv) (h : Machine.callWith i env s = .next t) :
    t.Inv := by
  unfold Machine.callWith at h
  split at h
  · exact hs.settle h
  · cases h; exact hs
  · exact hs.settle h

/-- A block at rest writes nothing more: only the await turn and the event port go. -/
theorem State.Rests.steps_eq (n : Nat) {s t : State} (h : s.Rests) (hrun : Machine.steps n s = .next t) :
    t = s ∨ t = s.turned [] := by
  induction n generalizing s with
  | zero => cases hrun; exact .inl rfl
  | succ n ih =>
    have hstep : Machine.step s = .next (s.turned []) := by
      obtain ⟨hw, hc, ht | ht⟩ := h
      · exact step_nil_of_idle hw hc ht
      · exact step_await_of_idle hw hc ht
    rw [steps_of_next n _ _ hstep] at hrun
    have hrests : (s.turned []).Rests := ⟨h.wf, h.idle, .inl rfl⟩
    rcases ih hrests hrun with ht | ht <;> exact .inr ht

/-! ### What a host operation of the driver answers -/

/-- An operation other than CHECK leaves the block at rest, with the await turn behind it (R300). -/
theorem HostOutcome.rests {s t : State} {c : HostCall} (h : HostOutcome s c t) (hc : decodeCall c ≠ .check)
    (hw : s.inst.wf = true) (hidle : s.checking = false) (hturns : s.turns = [.await]) : t.Rests := by
  cases h with
  | check hcheck => exact absurd hcheck hc
  | _ => exact ⟨hw, hidle, .inr hturns⟩

/-- A host turn that answers was taken by an idle block with valid parameters (R7, R10). -/
theorem exec_of_step_host {s t : State} {c : HostCall} {ts : List Turn} (hturn : s.turns = .host c :: ts)
    (h : step s = .next t) : s.inst.wf = true ∧ s.checking = false ∧ exec (decodeCall c) (s.turned ts) = .next t := by
  cases hw : s.inst.wf with
  | false => rw [step_of_not_wf hw] at h; cases h
  | true =>
    cases hc : s.checking with
    | true => rw [step_host_of_checking hw hc hturn] at h; cases h
    | false => rw [step_host_of_idle hw hc hturn] at h; exact ⟨rfl, rfl, h⟩

/-- R300: an operation other than CHECK that the driver calls, with nothing around it, leaves request and result as its meaning
leaves them. -/
theorem exec_of_callWith {s t : State} {i : Instr} {c : HostCall} (hencode : encode i = .call c) (hdecode : decodeCall c = i)
    (hi : i ≠ .check) (h : callWith i [] s = .next t) :
    ∃ u, exec i (s.turned [.await]) = .next u ∧ t.pendValid = u.pendValid ∧ t.result = u.result := by
  simp only [callWith, hencode] at h
  obtain ⟨n, hn⟩ : ∃ n, State.work { s with turns := .host c :: [] ++ [.await] } = n + 1 :=
    Nat.exists_eq_succ_of_ne_zero (by simp [State.work, turnWork])
  rw [settle, hn] at h
  obtain ⟨u, hstep, hrun⟩ := steps_succ_eq_next h
  obtain ⟨hw, hidle, hexec⟩ := exec_of_step_host rfl hstep
  have hrests : u.Rests := (hostOutcome_of_exec hexec).rests (hdecode.trans_ne hi) hw hidle rfl
  rw [hdecode] at hexec
  refine ⟨u, hexec, ?_⟩
  rcases hrests.steps_eq n hrun with rfl | rfl <;> exact ⟨rfl, rfl⟩

/-- Every transmit row stands outside the engine as a call of its own (R145). -/
theorem encode_txInstr (cmd : Cmd) (a b d : Word32) :
    ∃ c, encode (txInstr cmd a b d) = .call c ∧ decodeCall c = txInstr cmd a b d := by
  obtain ⟨c, hc⟩ : ∃ c, encode (txInstr cmd a b d) = .call c := by cases cmd <;> exact ⟨_, rfl⟩
  refine ⟨c, hc, ?_⟩
  have hwf : (txInstr cmd a b d).wf State.reset.ctx = true := by cases cmd <;> rfl
  have hdecode := decodeOfEncodeIsIdentity State.reset.ctx _ hwf
  rw [hc] at hdecode
  exact Except.ok.inj hdecode

/-! ### Requests -/

/-- R310: a TX that does not answer SENT leaves no request pending where none was. -/
theorem callWith_tx_not_sent {s t : State} {cmd : Cmd} {a b d : Word32} (hpend : s.pendValid = false)
    (h : callWith (txInstr cmd a b d) [] s = .next t) (hres : t.result ≠ some (.tx .sent)) : t.pendValid = false := by
  obtain ⟨c, hencode, hdecode⟩ := encode_txInstr cmd a b d
  have hne : txInstr cmd a b d ≠ .check := by cases cmd <;> nofun
  obtain ⟨u, hexec, hpv, hr⟩ := exec_of_callWith hencode hdecode hne h
  rw [exec_txInstr] at hexec
  rcases transmit_cases cmd (txParams a b d cmd) (s.turned [.await]) with ⟨hbusy, -⟩ | ⟨-, -, -, ho⟩ | ⟨-, -, ho⟩
  · exact absurd (hpend.symm.trans hbusy) Bool.false_ne_true
  · cases hexec.symm.trans ho; exact hpv.trans hpend
  · cases hexec.symm.trans ho; exact absurd hr hres

/-- R307: after TIMEOUT no request is pending. -/
theorem callWith_timeout_pendValid {s t : State} (h : callWith .timeout [] s = .next t) : t.pendValid = false := by
  obtain ⟨u, hexec, hpv, -⟩ := exec_of_callWith (i := .timeout) (c := { w := 0b0110000 }) rfl rfl nofun h
  rw [exec_timeout_eq] at hexec
  split at hexec
  · cases hexec; exact hpv
  · next hpend => cases hexec; exact hpv.trans (Bool.eq_false_iff.mpr hpend)

/-- Where the driver's request or wait has ended, succeeded or failed, no request is pending (R343). -/
def HostResult.NonePending : HostResult → Prop
  | .succeeded t => t.pendValid = false
  | .failed t => t.pendValid = false
  | .waiting _ => True
  | .stopped => True

/-- R340, R260, R262, R307: a wait ends with an ACK on the port, which has ended the request, or with TIMEOUT. -/
theorem waitAck_nonePending (tWait : Nat) (qs : List Poll) {s : State} (hs : s.Inv) : (waitAck tWait qs s).NonePending := by
  induction qs generalizing s with
  | nil => trivial
  | cons q qs ih =>
    rw [waitAck]
    cases hcheck : callWith .check q.env s with
    | fault f => trivial
    | refused r => trivial
    | next u =>
      have hu : u.Inv := hs.callWith hcheck
      dsimp only
      split
      · next aid status hres =>
        have hended := hu.ack_resolved aid status hres
        split <;> exact hended
      · split
        · cases htimeout : callWith .timeout [] u with
          | fault f => trivial
          | refused r => trivial
          | next v => exact callWith_timeout_pendValid htimeout
        · exact ih hu

/-- R340, R343: a TX that is not answered SENT leaves none pending, and otherwise the wait ends the request. -/
theorem request_nonePending (h : HostParams) (cmd : Cmd) (a b d : Word32) (qs : List Poll) {s : State} (hs : s.Inv)
    (hpend : s.pendValid = false) : (request h (txInstr cmd a b d) qs s).NonePending := by
  rw [request]
  cases htx : callWith (txInstr cmd a b d) [] s with
  | fault f => trivial
  | refused r => trivial
  | next t =>
    dsimp only
    split
    · exact waitAck_nonePending h.tWait qs (hs.callWith htx)
    · next hres => exact callWith_tx_not_sent hpend htx hres

/-- Settles O60, by `request_nonePending` for both ends. -/
theorem requestEndsWithNonePending : Obligations.RequestEndsWithNonePending := by
  unfold Obligations.RequestEndsWithNonePending
  intro h c a b d qs s t hs hpend hends
  have hnone := request_nonePending h c a b d qs hs hpend
  rcases hends with he | he <;> rw [he] at hnone <;> exact hnone

end Sys2Proof.Machine
end

section
/-! PROOFS. The exception statements (60_exceptions.md): what a step raises and what it then leaves as it was, and that the two output
ports reach nothing. -/

namespace Sys2Proof.Machine

open Sys2Proof

/-! ### The events of a step (R353, R360, R361, R364, R367) -/

/-- An event that can stand in an event list: none of the three whose rules raise nothing (R353, R360, R361). -/
def Event.Listed (e : Event) : Prop := e ≠ .frameSync ∧ e ≠ .commandRejected ∧ e ≠ .transportUnavailable

theorem Event.Passive.listed {e : Event} (h : e.Passive) : e.Listed := by
  rcases h with rfl | rfl | rfl | rfl | rfl | rfl | rfl <;> exact ⟨nofun, nofun, nofun⟩

/-- What a step raises: no event, one event that leaves the registers and the transmit FIFO alone, or the COMMAND_TIMEOUT that
ends the request. -/
inductive EventRaised (s t : State) : Prop
  | silent (hev : t.events = [])
  | inert (e : Event) (he : e.Listed) (hev : t.events = [e]) (hreg : SameRegisters s t) (htx : t.tx = s.tx)
  | expired (hev : t.events = [.commandTimeout]) (hreg : SameRegisters s.expirePending t) (htx : t.tx = s.tx)

theorem ackEffect_events (p : List Byte) (c : Cmd) (s : State) : (ackEffect p c s).events = s.events := by
  rw [ackEffect_frame]

/-- R364: a byte step's error is one event, LENGTH_OVERFLOW or TAIL_MISMATCH. -/
theorem eventRaised_of_asmError {s : State} {b : Byte} {rest : List Byte} {ts : List Turn} {e : Event} {a : Asm}
    (hb : byteStep s.inst b s.asm = .error e a) : EventRaised s ((afterRound s rest ts a []).takeError e) := by
  have hreg : SameRegisters s ((afterRound s rest ts a []).takeError e) := takeError_afterRound_sameRegisters hb
  rcases byteStep_error s.inst b s.asm a e hb with rfl | rfl
  · exact .inert .lengthOverflow ⟨nofun, nofun, nofun⟩ rfl hreg rfl
  · exact .inert .tailMismatch ⟨nofun, nofun, nofun⟩ rfl hreg rfl

/-- R210, R364: of a completed frame's outcomes only a dropped frame raises an event, and it writes nothing else. -/
theorem eventRaised_of_frame {s t : State} {rest : List Byte} {ts : List Turn} {k : FrameKind} {p : List Byte} {a : Asm}
    (h : FrameOutcome (afterRound s rest ts a []) k p t) : EventRaised s t := by
  cases h with
  | dropped e r he => exact .inert e he.listed rfl ⟨rfl, rfl, rfl, rfl, rfl, rfl, rfl⟩ rfl
  | committed => exact .silent rfl
  | rejected => exact .silent rfl
  | accepted => exact .silent (ackEffect_events p _ _)

/-- R362, R364: a host call raises TX_BUSY or CONFIG_GATED for a transmit turned away, or COMMAND_TIMEOUT, or nothing. -/
theorem eventRaised_of_host {s t : State} {c : HostCall} {ts : List Turn} (h : HostOutcome (s.turned ts) c t) :
    EventRaised s t := by
  cases h with
  | reset => exact .silent rfl
  | check => exact .silent rfl
  | answered r es _ hes =>
    rcases hes with rfl | rfl | rfl
    · exact .silent rfl
    · exact .inert .txBusy ⟨nofun, nofun, nofun⟩ rfl ⟨rfl, rfl, rfl, rfl, rfl, rfl, rfl⟩ rfl
    · exact .inert .configGated ⟨nofun, nofun, nofun⟩ rfl ⟨rfl, rfl, rfl, rfl, rfl, rfl, rfl⟩ rfl
  | sent => exact .silent rfl
  | expired => exact .expired rfl ⟨rfl, rfl, rfl, rfl, rfl, rfl, rfl⟩ rfl

/-- Every step raises its events in one of these ways. -/
theorem eventRaised_of_step {s t : State} (h : step s = .next t) : EventRaised s t := by
  cases stepTurn_of_step h with
  | environment => exact .silent rfl
  | fifoEmpty => exact .silent rfl
  | byteTaken => exact .silent rfl
  | asmError ts b rest e a _ _ hb => exact eventRaised_of_asmError hb
  | frame ts b rest k p a _ _ _ _ ht => exact eventRaised_of_frame (frameOutcome_of_exec ht)
  | host c ts _ _ _ ht => exact eventRaised_of_host (hostOutcome_of_exec ht)

/-- Settles O56: the event list of each way to raise holds at most one event, which is a listed one. -/
theorem atMostOneEventPerStep : Obligations.AtMostOneEventPerStep := by
  unfold Obligations.AtMostOneEventPerStep
  intro s t h
  have of_singleton {e : Event} (hev : t.events = [e]) (he : e.Listed) :
      t.events.length ≤ 1 ∧ ∀ e' ∈ t.events, e'.Listed := by
    rw [hev]
    exact ⟨Nat.le_refl 1, List.forall_mem_singleton.mpr he⟩
  cases eventRaised_of_step h with
  | silent hev => rw [hev]; exact ⟨Nat.zero_le 1, nofun⟩
  | inert e he hev => exact of_singleton hev he
  | expired hev => exact of_singleton hev ⟨nofun, nofun, nofun⟩

/-- Settles O57: an event other than COMMAND_TIMEOUT leaves every register, and the timeout leaves all but `IN_CFG` and
`PEND_VALID`. -/
theorem errorsWriteNoVisibleState : Obligations.ErrorsWriteNoVisibleState := by
  unfold Obligations.ErrorsWriteNoVisibleState
  intro s t h hne
  cases eventRaised_of_step h with
  | silent hev => exact absurd hev hne
  | inert e _ _ hreg htx =>
    exact ⟨hreg.snap, hreg.cfg, hreg.enhanced, hreg.pendCmd, htx, fun _ => ⟨hreg.inCfg, hreg.pendValid⟩⟩
  | expired hev hreg htx =>
    exact ⟨hreg.snap, hreg.cfg, hreg.enhanced, hreg.pendCmd, htx, fun hother => absurd hev hother⟩

/-! ### The output ports (R352, 44_host_ops.md R303) -/

/-- The state with another value on the result port. -/
def State.withResult (s : State) (r : Option OpResult) : State := { s with result := r }

/-- R303: every completed frame ends its CHECK with a result of its own, so the one on the port before is lost. -/
theorem exec_selectRow_withResult (x : DecodeCtx) (k : FrameKind) (p : List Byte) (s : State) (r : Option OpResult) :
    exec (selectRow x k p) (s.withResult r) = exec (selectRow x k p) s := by
  cases k with
  | data =>
    show exec (selectData x p) (s.withResult r) = exec (selectData x p) s
    rcases selectData_cases x p with hsel | hsel | hsel | hsel | hsel | hsel <;> rw [hsel] <;> rfl
  | ack =>
    show exec (selectAck x p) (s.withResult r) = exec (selectAck x p) s
    rcases selectAck_cases x p with hsel | ⟨c, -, -, -, hsel⟩ <;> rw [hsel]
    · rfl
    · cases c <;> rfl

/-- R300, R303: every host operation replaces the result on the port, which CHECK clears as it begins. -/
theorem exec_decodeCall_withResult (c : HostCall) (s : State) (r : Option OpResult) :
    exec (decodeCall c) (s.withResult r) = exec (decodeCall c) s := by
  rcases decodeCall_cases c with hc | hc | ⟨cmd, hc⟩ | hc | hc | hc | hc | hc | hc <;> rw [hc]
  case inr.inr.inl => rw [exec_txInstr, exec_txInstr]; rfl
  case inr.inr.inr.inr.inl => rw [exec_timeout_eq, exec_timeout_eq]; rfl
  all_goals rfl

/-- What is fetched runs alike, but for the output ports. -/
def FetchPortsAgree (f g : Fetched) : Prop := OutcomesRelated SameButPorts f.run g.run

theorem FetchPortsAgree.of_run_eq {f g : Fetched} (h : f.run = g.run) : FetchPortsAgree f g := by
  unfold FetchPortsAgree
  rw [h]
  cases g.run <;> rfl

theorem FetchPortsAgree.ite {c : Prop} [Decidable c] {f f' g g' : Fetched} (h : FetchPortsAgree f g)
    (h' : FetchPortsAgree f' g') : FetchPortsAgree (if c then f else f') (if c then g else g') := by
  split
  · exact h
  · exact h'

/-- R302: a round takes the same byte the same way whatever result stands on the port. -/
theorem engineTurn_portsAgree (s : State) (r : Option OpResult) :
    FetchPortsAgree (engineTurn s) (engineTurn (s.withResult r)) := by
  obtain ⟨inst, asm, snap, cfg, inCfg, enhanced, pendValid, pendCmd, checking, rx, tx, time, turns, draws, result,
    events⟩ := s
  cases rx with
  | nil => rfl
  | cons b rest =>
    unfold engineTurn
    dsimp only [State.withResult]
    cases byteStep inst b asm with
    | none a => rfl
    | error e a => cases e <;> rfl
    | complete k p a => exact .of_run_eq (exec_selectRow_withResult _ k p _ r).symm
    | fault f => rfl

/-- The turn that is next does not depend on the result port. -/
theorem fetch_portsAgree (s : State) (r : Option OpResult) : FetchPortsAgree (fetch s) (fetch (s.withResult r)) := by
  obtain ⟨inst, asm, snap, cfg, inCfg, enhanced, pendValid, pendCmd, checking, rx, tx, time, turns, draws, result,
    events⟩ := s
  refine FetchPortsAgree.ite rfl ?_
  cases turns with
  | nil => exact .ite (engineTurn_portsAgree _ r) rfl
  | cons u ts =>
    cases u with
    | host c => exact .ite rfl (.of_run_eq (exec_decodeCall_withResult c _ r).symm)
    | engine => exact .ite (engineTurn_portsAgree _ r) rfl
    | await => exact .ite (engineTurn_portsAgree _ r) rfl
    | transport bs => rfl
    | drain n => rfl
    | clock t => rfl

/-- Settles O58: every turn clears the event port first (`step_withEvents`), and neither the fetch nor any meaning reads the result
port. -/
theorem noStepReadsTheOutputPorts : Obligations.NoStepReadsTheOutputPorts := by
  unfold Obligations.NoStepReadsTheOutputPorts
  intro s r es
  exact (step_withEvents (s.withResult r) es).symm ▸ fetch_portsAgree s r

end Sys2Proof.Machine
end

section
/-! PROOFS. RESET and the two hazards of a request (70_reset_and_hazards.md): the echo of a command frame under DOC, and an Ack that comes
after TIMEOUT. -/

namespace Sys2Proof.Machine

open Sys2Proof

/-! ### The echo of a command frame (R412) -/

/-- R205: an id and two more bytes have room for a status word. -/
theorem four_le_length_echo (v : Word16) {q : List Byte} (hq : 2 ≤ q.length) : 4 ≤ (bytes16 v ++ q).length := by
  rw [List.length_append]
  exact Nat.add_le_add_left hq 2

/-- R412: the first two parameter bytes stand where an Ack has its status word. -/
theorem le16_two_echo (v w : Word16) (rest : List Byte) : le16 (bytes16 v ++ (bytes16 w ++ rest)) 2 = w := le16_bytes16 w rest

/-- R412, R207: under DOC a payload that begins with the pending command's own id, as its echo does, runs as the command's Ack once it
has room for a status word. -/
theorem exec_selectRow_echo {s : State} (hdoc : s.inst.profile = .doc) (hpend : s.pendValid = true) {q : List Byte}
    (hq : 2 ≤ q.length) : exec (selectRow s.ctx .ack (bytes16 s.pendCmd.id ++ q)) s =
      exec (ackInstr s.pendCmd (bytes16 s.pendCmd.id ++ q)) s := by
  have hack : s.pendCmd.ackId s.inst.profile = s.pendCmd.id := by rw [hdoc]; rfl
  have hid : le16 (bytes16 s.pendCmd.id ++ q) 0 = s.pendCmd.ackId s.inst.profile := (le16_bytes16 _ q).trans hack.symm
  have hctx : s.ctx.pend = some s.pendCmd := (s.pending_eq_some _).mpr ⟨hpend, rfl⟩
  exact congrArg (exec · s) (selectAck_of_pending (four_le_length_echo _ hq) hctx hid)

/-- R412, R270 to R277: the commands whose parameters can begin `00 00` have an Ack row without return data and without an effect. -/
theorem ackRow_of_zeroParams : ∀ c ∈ [Cmd.setRes, .btOff, .setGateThr, .setMaxgateNoone],
    ackNeed c = 4 ∧ ∀ p s, ackEffect p c s = s := by
  simp only [List.forall_mem_cons]
  exact ⟨⟨rfl, fun _ _ => rfl⟩, ⟨rfl, fun _ _ => rfl⟩, ⟨rfl, fun _ _ => rfl⟩, ⟨rfl, fun _ _ => rfl⟩, nofun⟩

/-- Settles O42: an echo without parameters is short and in the unsolicited row, and any other echo is read as the pending command's Ack,
whose status word is its first two parameter bytes. -/
theorem transmitEchoUnderDoc : Obligations.TransmitEchoUnderDoc := by
  unfold Obligations.TransmitEchoUnderDoc
  intro s hdoc hpend
  refine ⟨?short, ?rejected, ?accepted⟩
  case short =>
    intro c _ _
    obtain ⟨-, -, -, hshort⟩ := unsolicitedAckIsIgnored s (bytes16 c.id)
    exact hshort (by decide : 2 < 4)
  case rejected =>
    rintro c - rfl
    have hst : le16 (bytes16 s.pendCmd.id ++ [0x01, 0x00]) 2 = 1 := le16_two_echo _ 1 []
    have hne : le16 (bytes16 s.pendCmd.id ++ [0x01, 0x00]) 2 ≠ 0 := by rw [hst]; decide
    rw [exec_selectRow_echo hdoc hpend (q := [0x01, 0x00]) (Nat.le_refl 2), exec_ackInstr_rejected s _ hne, hst, le16_bytes16]
  case accepted =>
    rintro c hc rfl rest
    obtain ⟨hneed, heffect⟩ := ackRow_of_zeroParams s.pendCmd hc
    have hq : 2 ≤ ([0x00, 0x00] ++ rest : List Byte).length := Nat.le_add_left 2 rest.length
    have hst : le16 (bytes16 s.pendCmd.id ++ ([0x00, 0x00] ++ rest)) 2 = 0 := le16_two_echo _ 0 rest
    have hl : ackNeed s.pendCmd ≤ (bytes16 s.pendCmd.id ++ ([0x00, 0x00] ++ rest)).length :=
      hneed.trans_le (four_le_length_echo _ hq)
    rw [List.append_assoc, exec_selectRow_echo hdoc hpend hq, exec_ackInstr_accepted s _ hst hl, heffect, le16_bytes16]

/-! ### RESET (R390, R391) -/

/-- Settles O43: RESET writes `Asm.afterReset`, the empty snapshot, the unknown configuration and the four mode and request registers,
and nothing else but the result port. -/
theorem resetGivesTheResetValues : Obligations.ResetGivesTheResetValues := by
  unfold Obligations.ResetGivesTheResetValues
  intro s
  have hasm : (s.resetRegisters.endOp .done).asm = Asm.afterReset s.draws := s.resetRegisters_asm
  refine ⟨s.resetRegisters.endOp .done, rfl, rfl, rfl, rfl, rfl, rfl, rfl, rfl, rfl, ?_⟩
  rw [hasm]
  exact ⟨rfl, rfl, rfl, rfl, rfl, rfl, rfl, s.resetRegisters_snap, s.resetRegisters_cfg, rfl, rfl, rfl, rfl⟩

/-! ### The late Ack (R403) -/

/-- R307: TIMEOUT leaves no request pending. -/
theorem exec_timeout_pendValid {s t : State} (h : exec .timeout s = .next t) : t.pendValid = false := by
  cases hpend : s.pendValid with
  | false => rw [exec_timeout_eq, if_neg (Bool.eq_false_iff.mp hpend)] at h; cases h; exact hpend
  | true => rw [exec_timeout_pending hpend] at h; cases h; rfl

/-- Settles O46: with no request pending no Ack matches one (`selectRow_ack_unmatched`). -/
theorem lateAckIsUnsolicited : Obligations.LateAckIsUnsolicited := by
  unfold Obligations.LateAckIsUnsolicited
  intro s t p h
  have hnone : t.pendValid = false := exec_timeout_pendValid h
  exact selectRow_ack_unmatched fun ⟨hvalid, _⟩ => Bool.false_ne_true (hnone.symm.trans hvalid)

end Sys2Proof.Machine
end
